-- ==== Sys2Proof/Word.lean ====
section
/-! DEFINITION. The word types of the unit: data words, request words, response words and selection vectors
(00_scope.md R6, 30_encoding.md R70). -/

namespace Sys2Proof

/-- A 64-bit value: bit `i` has weight `2^i`, every value unsigned (R6). -/
abbrev Word := BitVec 64

/-- Format REQ, the 256-bit request word the host presents (R70, R71). -/
abbrev ReqWord := BitVec 256

/-- Format RSP, the 64-bit response word the unit presents (R70, R72). -/
abbrev RspWord := BitVec 64

/-- Format SEL, the 7-bit selection vector a control step is decoded from (R70, R74). -/
abbrev SelWord := BitVec 7

end Sys2Proof
end

