-- ==== Sys2Proof/Config.lean ====
section
/-! DEFINITION. What is fixed for the block (00_scope.md R5, Table 00-1) and the free values the spec leaves open
(93_implementation_defined.md U2, U8). `STEP_TICKS` has no constant here: the model has steps and no time (R5, R212; log 10). -/

namespace Sys2Proof.Config

/-- Table 00-1 `W`: the width of every data value and data register. -/
abbrev W : Nat := 64

/-- Table 00-1 `MOD`: the modulus of all arithmetic. -/
abbrev MOD : Nat := 2 ^ 64

/-- Table 00-1 `MAX_ITER`: the largest number of iteration steps in one operation. -/
abbrev MAX_ITER : Nat := 64

/-- Table 00-1 `N_OPERANDS`. -/
abbrev N_OPERANDS : Nat := 4

/-- Table 00-1 `REQ_BITS`. -/
abbrev REQ_BITS : Nat := 256

/-- Table 00-1 `RSP_BITS`. -/
abbrev RSP_BITS : Nat := 64

/-- Table 00-1 `PHASE_BITS`. -/
abbrev PHASE_BITS : Nat := 2

/-- Table 00-1 `SEL_BITS`. -/
abbrev SEL_BITS : Nat := 7

/-- Table 00-1 `N_OUTSTANDING`: operations in flight in one instance. -/
abbrev N_OUTSTANDING : Nat := 1

/-- FREE VALUE (R32, 93 U2; log 4): what `rsp_result` shows outside phase DONE, at the draw of the given number and at
the given read of that draw, so that two reads need not agree. -/
opaque freeRsp : Nat → Nat → RspWord

/-- FREE VALUE (R31, 93 U8; log 3): what the host drives on `rst` at a tick no listed move covers. -/
opaque freeRst : Nat → Bool

/-- FREE VALUE (R31, 93 U8; log 3): what the host drives on `req_valid` at a tick no listed move covers. -/
opaque freeReqValid : Nat → Bool

/-- FREE VALUE (R31, 93 U8; log 3): what the host drives on `rsp_ready` at a tick no listed move covers. -/
opaque freeRspReady : Nat → Bool

/-- FREE VALUE (R31, 93 U8; log 3): what the host drives on the four operand ports at a tick no listed move covers. -/
opaque freeReq : Nat → ReqWord

end Sys2Proof.Config
end

