-- ==== Sys2Proof/Syntax.lean ====
section
/-! DEFINITION. The operations of spec/opcode_table.json, one constructor a row (30_encoding.md R81), and the encoded words the
decoder reads. The bits a SEL row ignores (the letters of its pattern) are no operands (R75; log 15). -/

namespace Sys2Proof

/-- One constructor per row of spec/opcode_table.json: the host-level operation and the eight control steps. -/
inductive Instr where
  /-- ADVANCE, format REQ: `advance(state, delta, multiplier, increment)` (R100, R71). -/
  | advance (state delta mult inc : Word)
  /-- RESET (R120). -/
  | reset
  /-- WAIT (R121). -/
  | wait
  /-- ACCEPT (R122). -/
  | accept
  /-- ITER_SKIP (R123). -/
  | iterSkip
  /-- ITER_COMPOSE (R124). -/
  | iterCompose
  /-- FINISH (R125). -/
  | finish
  /-- HOLD (R126). -/
  | hold
  /-- DELIVER (R127). -/
  | deliver
deriving DecidableEq, Repr

/-- An encoded operation: a request word, or the selection vector of a tick (R70). Format RSP encodes no operation. -/
inductive Encoded where
  | req (w : ReqWord)
  | sel (w : SelWord)
deriving DecidableEq, Repr

end Sys2Proof
end

