-- ==== Sys2Proof/WellFormed.lean ====
section
/-! DEFINITION. Which operations and which encoded words are well formed (30_encoding.md R76, R77). -/

namespace Sys2Proof

/-- Every operation is well formed: each operand of ADVANCE is any 64-bit value, a control step has no operand (R77, R100). -/
def Instr.wellFormed : Instr → Bool
  | .advance _ _ _ _ => true
  | .reset => true
  | .wait => true
  | .accept => true
  | .iterSkip => true
  | .iterCompose => true
  | .finish => true
  | .hold => true
  | .deliver => true

/-- CHECK 1. An encoded word is well formed unless it lies in the reserved region of SEL, `rst = 0` with PHASE = 0b11 (R77). -/
def Encoded.wellFormed : Encoded → Bool
  | .req _ => true
  | .sel w => w.getLsbD 6 || !(w.getLsbD 5 && w.getLsbD 4)

/-- CHECK 2. A selection vector can be formed from a real DELTA and a real PHASE only if not both `dz` and `b0` are 1 (R76)
and PHASE is not 0b11 (R38). Vectors that fail it still decode (R76). -/
def Encoded.formable : Encoded → Bool
  | .req _ => true
  | .sel w => !(w.getLsbD 2 && w.getLsbD 1) && !(w.getLsbD 5 && w.getLsbD 4)

end Sys2Proof
end

