-- ==== Sys2Proof/Decode.lean ====
section
/-! DEFINITION. The decoder of the two operation formats, total and rejecting by name, and after it the encoder
(30_encoding.md R71, R74, R75, R77, R81). -/

namespace Sys2Proof

/-! ### The control decode table -/

/-- Why a word is refused by the decoder. -/
inductive Reject where
  /-- One of the 16 vectors with `rst = 0` and PHASE = 0b11: no row of Table 30-3 matches (R77). -/
  | reservedSelection (w : SelWord)
deriving DecidableEq, Repr

/-- A row of Table 30-3: a step, its mask and its match. -/
structure SelRow where
  step : Instr
  mask : SelWord
  value : SelWord
deriving DecidableEq, Repr

/-- A row matches when `(SEL AND mask) = match` (R75). -/
def SelRow.accepts (r : SelRow) (w : SelWord) : Bool :=
  w &&& r.mask == r.value

/-- Table 30-3, row by row; the reserved region has no row (R81). -/
def selTable : List SelRow :=
  [ ⟨.reset, 0x40, 0x40⟩,
    ⟨.wait, 0x78, 0x00⟩,
    ⟨.accept, 0x78, 0x08⟩,
    ⟨.iterSkip, 0x76, 0x10⟩,
    ⟨.iterCompose, 0x76, 0x12⟩,
    ⟨.finish, 0x74, 0x14⟩,
    ⟨.hold, 0x71, 0x20⟩,
    ⟨.deliver, 0x71, 0x21⟩ ]

/-! ### Decoding -/

/-- The step of the row SEL matches (R75); at most one row does (R76). -/
def decodeSel (w : SelWord) : Except Reject Instr :=
  match selTable.find? (fun r => r.accepts w) with
  | some r => .ok r.step
  | none => .error (.reservedSelection w)

/-- `REQ[255:0]` holds `inc`, `mult`, `delta` and `state`, `state` in the low 64 bits (R71, Table 30-1). -/
def decodeReq (w : ReqWord) : Instr :=
  .advance (w.extractLsb' 0 64) (w.extractLsb' 64 64) (w.extractLsb' 128 64) (w.extractLsb' 192 64)

/-- The decoder, total on the words of both formats. -/
def decode : Encoded → Except Reject Instr
  | .req w => .ok (decodeReq w)
  | .sel w => decodeSel w

/-! ### Encoding -/

/-- `REQ = {req_inc, req_mult, req_delta, req_state}`, the first argument in the least significant 64 bits (R71). -/
def encodeReq (state delta mult inc : Word) : ReqWord :=
  inc ++ mult ++ delta ++ state

/-- The mask and match of a control step, by Table 30-3 (none for ADVANCE, which has no SEL row). -/
def selMaskValue : Instr → SelWord × SelWord
  | .advance _ _ _ _ => (0x00, 0x00)
  | .reset => (0x40, 0x40)
  | .wait => (0x78, 0x00)
  | .accept => (0x78, 0x08)
  | .iterSkip => (0x76, 0x10)
  | .iterCompose => (0x76, 0x12)
  | .finish => (0x74, 0x14)
  | .hold => (0x71, 0x20)
  | .deliver => (0x71, 0x21)

/-- The encoding of an operation with the bits its row ignores taken from `ignored`. -/
def encodeWith (i : Instr) (ignored : SelWord) : Encoded :=
  match i with
  | .advance state delta mult inc => .req (encodeReq state delta mult inc)
  | step => .sel ((selMaskValue step).2 ||| (ignored &&& ~~~(selMaskValue step).1))

/-- The encoding of an operation, the bits its row ignores being 0 (log 15). -/
def encode (i : Instr) : Encoded :=
  encodeWith i 0

/-! ### The opcode table's numbering -/

/-- The words of spec/opcode_table.json by their width: up to one byte a word is of format SEL, above that of format REQ
(log 16). A bit above the format's width belongs to no word. -/
def tableWord (nbits w : Nat) : Option Encoded :=
  if nbits ≤ 8 then
    if w < 2 ^ Config.SEL_BITS then some (.sel (BitVec.ofNat 7 w)) else none
  else
    if nbits ≤ Config.REQ_BITS ∧ w < 2 ^ Config.REQ_BITS then some (.req (BitVec.ofNat 256 w)) else none

/-- The operation the decoder reads from a word numbered as spec/opcode_table.json numbers it. -/
def decodeTableWord (nbits w : Nat) : Option Instr :=
  match tableWord nbits w with
  | some e => (decode e).toOption
  | none => none

end Sys2Proof
end

