-- ==== Sys2Proof/Machine/State.lean ====
section
/-! DEFINITION. The state of one unit and its host, as plain data (10_state.md), and the ways a step can stop (60_exceptions.md R170). -/

namespace Sys2Proof.Machine

/-- The three phases of Table 10-2. Code 0b11 is reserved and has no value here (R28, R38; log 8). -/
inductive Phase where
  /-- 0b00: no operation in progress. -/
  | idle
  /-- 0b01: an operation was accepted. -/
  | run
  /-- 0b10: RESULT holds the result. -/
  | done
deriving DecidableEq, Repr

/-- The values on the unit's input ports at a tick (R31, Table 10-3). `clk` has no value: its edge is the step (R9). -/
structure Inputs where
  rst : Bool
  reqValid : Bool
  reqState : Word
  reqDelta : Word
  reqMult : Word
  reqInc : Word
  rspReady : Bool
deriving DecidableEq, Repr

/-- What the host does next (R216; log 3, log 6). -/
inductive HostMove where
  /-- Drive these values on the input ports for one tick. -/
  | tick (inputs : Inputs)
  /-- Issue one ADVANCE: present this request word until its ACCEPT tick and take the response (R79, R101). -/
  | request (w : ReqWord)
deriving DecidableEq, Repr

/-- The eight registers of Table 10-1 (R20), the input ports (R31), and three fields of the model's own for the host. -/
structure State where
  /-- STATE (R21). -/
  state : Word
  /-- DELTA (R22). -/
  delta : Word
  /-- ACC_MULT (R23). -/
  accMult : Word
  /-- ACC_INC (R24). -/
  accInc : Word
  /-- CUR_MULT (R25). -/
  curMult : Word
  /-- CUR_INC (R26). -/
  curInc : Word
  /-- RESULT (R27). -/
  result : Word
  /-- PHASE (R28). -/
  phase : Phase
  /-- The values the host drives on the input ports now (R31; log 2). -/
  ports : Inputs
  /-- MODEL'S OWN: the host's moves still to come, the next one first (log 3). -/
  moves : List HostMove
  /-- MODEL'S OWN: the responses the host has taken at DELIVER ticks, oldest first (R127; log 5). -/
  taken : List Word
  /-- MODEL'S OWN: the number of the draw the next free values are taken from (log 4). -/
  draws : Nat
deriving DecidableEq, Repr

/-- No step faults: "The set of synchronous exceptions is empty" (R170, R162, R174; log 13). -/
inductive Fault where
deriving DecidableEq, Repr

/-- The ways a step can be refused. -/
inductive Refusal where
  /-- Raised by exec for an operation without a meaning. No arm of this model raises it. Safe. -/
  | notModelled (mnemonic : String)
  /-- Raised by step where the decoder refuses a selection vector with `rst = 0` and PHASE = 0b11 (R77, 93 U5: refuse).
  No state of the model forms such a vector (R38, R76). Safe. -/
  | reservedSelection (w : SelWord)
deriving DecidableEq, Repr

/-- Input ports all zero: no reset, no request, the host not ready (log 2). -/
def Inputs.quiet : Inputs where
  rst := false
  reqValid := false
  reqState := 0
  reqDelta := 0
  reqMult := 0
  reqInc := 0
  rspReady := false

/-- The state after a RESET step (R35, R200): PHASE = IDLE. The seven data registers, which the spec leaves unspecified
(93 U1), are 0 by log 1; the ports are quiet by log 2; the host has listed nothing and taken nothing (log 3, log 5). -/
def State.reset : State where
  state := 0
  delta := 0
  accMult := 0
  accInc := 0
  curMult := 0
  curInc := 0
  result := 0
  phase := .idle
  ports := .quiet
  moves := []
  taken := []
  draws := 0

end Sys2Proof.Machine
end

