-- ==== Sys2Proof/Machine/Flags.lean ====
section
/-! DEFINITION. The two conditions of DELTA. The unit stores no flag; no step sets one (10_state.md R30, 42_datapath.md R155, R162). -/

namespace Sys2Proof.Machine

/-- `dz(a) = 1` exactly when `a = 0`, the unsigned test (R155). -/
def dz (a : Word) : Bool :=
  a.toNat == 0

/-- `b0(a) = a[0]`, the bit of weight 1 (R155, R6). -/
def b0 (a : Word) : Bool :=
  a.getLsbD 0

end Sys2Proof.Machine
end

