-- ==== Sys2Proof/Machine/Operands.lean ====
section
/-! DEFINITION. How operands and words are assembled: the codes of PHASE (10_state.md R28), the selection vector (30_encoding.md R74),
the request on the operand ports (R71, R73) and the ports a host drives to present one (R79). No operand is extended,
scaled or shifted (R73). -/

namespace Sys2Proof.Machine

/-- PHASE[1:0], Table 10-2. -/
def Phase.code : Phase → BitVec 2
  | .idle => 0b00
  | .run => 0b01
  | .done => 0b10

/-- The phase with a code; 0b11 is no phase (R28, R38). -/
def Phase.ofCode (c : BitVec 2) : Option Phase :=
  if c = 0b00 then some .idle
  else if c = 0b01 then some .run
  else if c = 0b10 then some .done
  else none

/-- `SEL[6:0] = {rst, PHASE[1], PHASE[0], req_valid, dz, b0, rsp_ready}` from the values just before the tick (R74). -/
def selectionVector (s : State) : SelWord :=
  BitVec.ofBool s.ports.rst ++ s.phase.code ++ BitVec.ofBool s.ports.reqValid ++
    BitVec.ofBool (dz s.delta) ++ BitVec.ofBool (b0 s.delta) ++ BitVec.ofBool s.ports.rspReady

/-- The request word on the four operand ports (R71). -/
def Inputs.reqWord (p : Inputs) : ReqWord :=
  encodeReq p.reqState p.reqDelta p.reqMult p.reqInc

/-- The ports of a host that presents a request and is ready to take its response (R79). -/
def Inputs.presenting (state delta mult inc : Word) : Inputs where
  rst := false
  reqValid := true
  reqState := state
  reqDelta := delta
  reqMult := mult
  reqInc := inc
  rspReady := true

/-- The ports at a tick that no listed host move covers: free values of the given draw (93 U8; log 3). -/
def Inputs.free (draw : Nat) : Inputs where
  rst := Config.freeRst draw
  reqValid := Config.freeReqValid draw
  reqState := (Config.freeReq draw).extractLsb' 0 64
  reqDelta := (Config.freeReq draw).extractLsb' 64 64
  reqMult := (Config.freeReq draw).extractLsb' 128 64
  reqInc := (Config.freeReq draw).extractLsb' 192 64
  rspReady := Config.freeRspReady draw

end Sys2Proof.Machine
end

