-- ==== Sys2Proof/Machine/Ops.lean ====
section
/-! DEFINITION. The operators and actions of the data path (42_datapath.md), the named writes of the registers, the outputs, the
sequences of register writes the control steps share (41_control_steps.md), and the fetch of the next operation.
There is no operation that takes an exception or returns from one: the unit has neither (60_exceptions.md R174, R175). -/

namespace Sys2Proof.Machine

/-! ### Operators (42_datapath.md section 1) -/

/-- The low 64 bits of the exact product (R150). -/
def mul64 (a b : Word) : Word :=
  BitVec.ofNat 64 (a.toNat * b.toNat)

/-- The sum modulo 2^64, the carry discarded (R151). -/
def add64 (a b : Word) : Word :=
  BitVec.ofNat 64 (a.toNat + b.toNat)

/-- `(a * b + c) mod 2^64`: multiply the first two, add the third (R152). -/
def mac64 (a b c : Word) : Word :=
  add64 (mul64 a b) c

/-- `(a + 1) mod 2^64`, the pre-adder of the squaring lane (R153). -/
def inc64 (a : Word) : Word :=
  add64 a 1

/-- `floor(a / 2)`: logical shift right by one (R154). -/
def lsr1 (a : Word) : Word :=
  BitVec.ofNat 64 (a.toNat / 2)

/-! ### The lanes of the cascade (R160; log 11) -/

/-- Lane M1, a multiply-add. -/
def laneM1 (a b c : Word) : Word :=
  mac64 a b c

/-- Lane M2, a multiply. -/
def laneM2 (a b : Word) : Word :=
  mul64 a b

/-- Lane M3, a pre-add and multiply. -/
def laneM3 (a b : Word) : Word :=
  mul64 (inc64 a) b

/-- Lane M4, a squarer. -/
def laneM4 (a : Word) : Word :=
  mul64 a a

/-! ### The four actions (42_datapath.md section 2) -/

/-- An affine pair `(mult, inc)` stands for the map `x -> (mult*x + inc) mod 2^64` (42_datapath.md section 2). -/
structure Affine where
  mult : Word
  inc : Word
deriving DecidableEq, Repr

/-- COMPOSE: the pair of "apply `acc`, then apply `cur`" (R156; 90_conflicts.md C1). -/
def compose (acc cur : Affine) : Affine where
  mult := laneM2 acc.mult cur.mult
  inc := laneM1 acc.inc cur.mult cur.inc

/-- SQUARE: the pair of the map applied twice, from the unsquared multiplier (R157). -/
def square (cur : Affine) : Affine where
  mult := laneM4 cur.mult
  inc := laneM3 cur.mult cur.inc

/-- SHIFT: `lsr1` of the remaining step count (R158). -/
def shift (d : Word) : Word :=
  lsr1 d

/-- APPLY: the accumulated map applied to a state (R159). -/
def applyPair (acc : Affine) (s : Word) : Word :=
  laneM1 acc.mult s acc.inc

/-! ### Reads and writes of the registers (10_state.md R39: each by its own name) -/

/-- The accumulator pair `(ACC_MULT, ACC_INC)` (R23, R24). -/
def State.acc (s : State) : Affine where
  mult := s.accMult
  inc := s.accInc

/-- The doubling pair `(CUR_MULT, CUR_INC)` (R25, R26). -/
def State.cur (s : State) : Affine where
  mult := s.curMult
  inc := s.curInc

/-- STATE <- v (R21). -/
def State.setState (s : State) (v : Word) : State :=
  { s with state := v }

/-- DELTA <- v (R22). -/
def State.setDelta (s : State) (v : Word) : State :=
  { s with delta := v }

/-- (ACC_MULT, ACC_INC) <- p (R23, R24). -/
def State.setAcc (s : State) (p : Affine) : State :=
  { s with accMult := p.mult, accInc := p.inc }

/-- (CUR_MULT, CUR_INC) <- p (R25, R26). -/
def State.setCur (s : State) (p : Affine) : State :=
  { s with curMult := p.mult, curInc := p.inc }

/-- RESULT <- v (R27). -/
def State.setResult (s : State) (v : Word) : State :=
  { s with result := v }

/-- PHASE <- p (R28). -/
def State.setPhase (s : State) (p : Phase) : State :=
  { s with phase := p }

/-- The host drives the input ports (R31, R216). -/
def State.drive (s : State) (p : Inputs) : State :=
  { s with ports := p }

/-- The host takes a response (R127; log 5). -/
def State.take (s : State) (v : Word) : State :=
  { s with taken := s.taken ++ [v] }

/-- The host's next move is made: what is left to come, and a fresh draw of the free values (log 3, log 4). -/
def State.moved (s : State) (rest : List HostMove) : State :=
  { s with moves := rest, draws := s.draws + 1 }

/-! ### Outputs (10_state.md R32, Table 10-4) -/

/-- `req_ready = 1` exactly in phase IDLE (R32). -/
def State.reqReady (s : State) : Bool :=
  s.phase == .idle

/-- `rsp_valid = 1` exactly in phase DONE (R32). -/
def State.rspValid (s : State) : Bool :=
  s.phase == .done

/-- `rsp_result`, format RSP: RESULT in phase DONE, and outside it a free value, fresh at every read of every draw
(R32, R72, 93 U2; log 4). -/
def State.rspResult (s : State) (read : Nat) : RspWord :=
  match s.phase with
  | .done => s.result
  | .idle => Config.freeRsp s.draws read
  | .run => Config.freeRsp s.draws read

/-! ### The writes of the control steps. Every right side reads the state before the tick (00_scope.md R8). -/

/-- The writes of ACCEPT: the ports' operands, the identity pair, PHASE <- RUN (R122). -/
def acceptWrites (s : State) : State :=
  ((((s.setState s.ports.reqState).setDelta s.ports.reqDelta).setAcc ⟨1, 0⟩).setCur
    ⟨s.ports.reqMult, s.ports.reqInc⟩).setPhase .run

/-- SQUARE and SHIFT, the writes of ITER_SKIP (R123). -/
def squareShiftWrites (s : State) : State :=
  (s.setCur (square s.cur)).setDelta (shift s.delta)

/-- COMPOSE, SQUARE and SHIFT, the writes of ITER_COMPOSE (R124). -/
def composeSquareShiftWrites (s : State) : State :=
  ((s.setAcc (compose s.acc s.cur)).setCur (square s.cur)).setDelta (shift s.delta)

/-- APPLY, the writes of FINISH (R125). -/
def finishWrites (s : State) : State :=
  (s.setResult (applyPair s.acc s.state)).setPhase .done

/-- The host takes RESULT; PHASE <- IDLE (R127). -/
def deliverWrites (s : State) : State :=
  (s.take s.result).setPhase .idle

/-! ### A whole operation, by the control steps of R101 -/

/-- One iteration step: ITER_COMPOSE if bit 0 of DELTA is 1, else ITER_SKIP (R101, Table 41-1). -/
def iterationWrites (s : State) : State :=
  if b0 s.delta then composeSquareShiftWrites s else squareShiftWrites s

/-- The loop of phase RUN: iteration steps while DELTA is not 0, the test before the body (R129, R130, 90_conflicts.md C6),
for at most `fuel` steps. -/
def loopWrites : Nat → State → State
  | 0, s => s
  | fuel + 1, s => if dz s.delta then s else loopWrites fuel (iterationWrites s)

/-- From phase RUN to the delivered response: the loop, FINISH, DELIVER (R101 parts 2, 3 and 5). -/
def runToDelivery (s : State) : State :=
  deliverWrites (finishWrites (loopWrites Config.MAX_ITER s))

/-- What must happen before a new request is accepted: an operation in progress comes to its delivery first, the host being
ready (R57, R207; log 7). -/
def completePending (s : State) : State :=
  match s.phase with
  | .idle => s
  | .run => runToDelivery s
  | .done => deliverWrites s

/-- ADVANCE of the operands on the ports: ACCEPT, then to the delivery (R101). -/
def operation (s : State) : State :=
  runToDelivery (acceptWrites s)

/-! ### The next operation -/

/-- The host's next move, and what the unit decodes at it: at a tick the selection vector formed from the registers and
the driven ports (R74, R128); for an ADVANCE the request word. With no move listed the host drives free values (log 3). -/
def fetch (s : State) : Encoded × State :=
  match s.moves with
  | [] =>
    let t := (s.drive (.free s.draws)).moved []
    (.sel (selectionVector t), t)
  | .tick p :: rest =>
    let t := (s.drive p).moved rest
    (.sel (selectionVector t), t)
  | .request w :: rest => (.req w, s.moved rest)

/-! ### Placing an operation where `fetch` finds it -/

/-- A step count with the given `dz` and `b0`: DELTA itself if it has them, else a small number that has. The pair
`dz = 1`, `b0 = 1` is none of any number (R76): there `dz` counts. -/
def deltaWith (d : Word) (z b : Bool) : Word :=
  if z then 0
  else if dz d = false ∧ b0 d = b then d
  else if b then 1 else 2

/-- The registers and the next tick's inputs from which the control forms the vector `w`, as far as any do (R74, R76, R38;
log 16). -/
def State.withSelection (s : State) (w : SelWord) : State :=
  { s with
    phase := (Phase.ofCode (w.extractLsb' 4 2)).getD s.phase
    delta := deltaWith s.delta (w.getLsbD 2) (w.getLsbD 1)
    moves := .tick { s.ports with rst := w.getLsbD 6, reqValid := w.getLsbD 3, rspReady := w.getLsbD 0 } :: s.moves }

/-- The host's next move issues an ADVANCE with the request word `w` (log 16). -/
def State.withRequest (s : State) (w : ReqWord) : State :=
  { s with moves := .request w :: s.moves }

end Sys2Proof.Machine
end

