-- ==== Sys2Proof/Machine/Advance.lean ====
section
/-! DEFINITION. The host-level operation ADVANCE (40_advance.md R100, R101). -/

namespace Sys2Proof.Machine

/-- ADVANCE as one step of the model: a pending operation first comes to its delivery; then the host presents the request
and the unit runs ACCEPT, the iteration steps, FINISH and DELIVER, with no RESET and no HOLD among them (R79, R101, R57;
log 6, log 7). -/
def execAdvance (state delta mult inc : Word) (s : State) : Host.Outcome State Fault Refusal :=
  .next (operation ((completePending s).drive (.presenting state delta mult inc)))

end Sys2Proof.Machine
end

