-- ==== Sys2Proof/Machine/Handshake.lean ====
section
/-! DEFINITION. The control steps of the two handshakes: WAIT, ACCEPT, HOLD, DELIVER (41_control_steps.md R121, R122, R126, R127). -/

namespace Sys2Proof.Machine

/-- WAIT: no register is written (R121). -/
def execWait (s : State) : Host.Outcome State Fault Refusal :=
  .next s

/-- ACCEPT: the four operand ports are copied, the accumulator pair becomes the identity, PHASE <- RUN (R122). -/
def execAccept (s : State) : Host.Outcome State Fault Refusal :=
  .next (acceptWrites s)

/-- HOLD: no register is written (R126). -/
def execHold (s : State) : Host.Outcome State Fault Refusal :=
  .next s

/-- DELIVER: the host takes `rsp_result`, which is RESULT; PHASE <- IDLE (R127). -/
def execDeliver (s : State) : Host.Outcome State Fault Refusal :=
  .next (deliverWrites s)

end Sys2Proof.Machine
end

