-- ==== Sys2Proof/Machine/Iteration.lean ====
section
/-! DEFINITION. The control steps of phase RUN: ITER_SKIP, ITER_COMPOSE, FINISH (41_control_steps.md R123, R124, R125). -/

namespace Sys2Proof.Machine

/-- ITER_SKIP: SQUARE and SHIFT (R123). -/
def execIterSkip (s : State) : Host.Outcome State Fault Refusal :=
  .next (squareShiftWrites s)

/-- ITER_COMPOSE: COMPOSE, SQUARE and SHIFT, all from the values before the step (R124). -/
def execIterCompose (s : State) : Host.Outcome State Fault Refusal :=
  .next (composeSquareShiftWrites s)

/-- FINISH: RESULT <- APPLY, PHASE <- DONE (R125). -/
def execFinish (s : State) : Host.Outcome State Fault Refusal :=
  .next (finishWrites s)

end Sys2Proof.Machine
end

