-- ==== Sys2Proof/Machine/Reset.lean ====
section
/-! DEFINITION. The control step RESET (41_control_steps.md R120, 70_reset_and_hazards.md R200, R203, R206). -/

namespace Sys2Proof.Machine

/-- RESET: PHASE <- IDLE; the seven data registers keep their values (R120). -/
def execReset (s : State) : Host.Outcome State Fault Refusal :=
  .next (s.setPhase .idle)

end Sys2Proof.Machine
end

