-- ==== Sys2Proof/Machine/Dispatch.lean ====
section
/-! DEFINITION. One arm per operation, each one direct call of its meaning. -/

namespace Sys2Proof.Machine

def exec (i : Instr) (s : State) : Host.Outcome State Fault Refusal :=
  match i with
  | .advance state delta mult inc => Sys2Proof.Machine.execAdvance state delta mult inc s
  | .reset => Sys2Proof.Machine.execReset s
  | .wait => Sys2Proof.Machine.execWait s
  | .accept => Sys2Proof.Machine.execAccept s
  | .iterSkip => Sys2Proof.Machine.execIterSkip s
  | .iterCompose => Sys2Proof.Machine.execIterCompose s
  | .finish => Sys2Proof.Machine.execFinish s
  | .hold => Sys2Proof.Machine.execHold s
  | .deliver => Sys2Proof.Machine.execDeliver s

end Sys2Proof.Machine
end

