-- ==== Sys2Proof/Machine/Step.lean ====
section
/-! DEFINITION. One step of the machine: the host's next move, and the operation decoded at it (41_control_steps.md R128). -/

namespace Sys2Proof.Machine

/-- Fetch, decode, execute. A refused vector refuses the step (93 U5); no state forms one (R38, R76). -/
def step (s : State) : Host.Outcome State Fault Refusal :=
  match decode (fetch s).1 with
  | .ok i => exec i (fetch s).2
  | .error (.reservedSelection w) => .refused (.reservedSelection w)

/-- `s` with the operation of a word of spec/opcode_table.json placed so that the very next step runs it: a SEL word by the
registers and the next tick's inputs it is formed from, a REQ word as the host's next request (log 16). -/
def State.withFetchWord (s : State) (nbits w : Nat) : State :=
  if nbits ≤ 8 then s.withSelection (BitVec.ofNat 7 w) else s.withRequest (BitVec.ofNat 256 w)

end Sys2Proof.Machine
end

