-- ==== Sys2Proof/Machine/Contract.lean ====
section
/-! DEFINITION. What ADVANCE returns, as the spec defines it, and the numbers its rules speak of (40_advance.md; 00_scope.md R7).
No meaning of the machine uses these: they are the other side of the statements about it. -/

namespace Sys2Proof.Machine

/-- The one-step map `f(x) = (x * mult + inc) mod 2^64` (R1, R100). -/
def lcgStep (mult inc x : Word) : Word :=
  BitVec.ofNat 64 (x.toNat * mult.toNat + inc.toNat)

/-- `f^k(x)`: the one-step map applied `k` times (R100, R7). -/
def lcgIter (mult inc : Word) : Nat → Word → Word
  | 0, x => x
  | k + 1, x => lcgIter mult inc k (lcgStep mult inc x)

/-- `A(state, delta, mult, inc)`, the value an ADVANCE returns: `f^delta(state)` (R100). -/
def advanceValue (state delta mult inc : Word) : Word :=
  lcgIter mult inc delta.toNat state

/-- `m^k mod 2^64` (R102). -/
def powMod (m : Word) (k : Nat) : Word :=
  BitVec.ofNat 64 (m.toNat ^ k)

/-- `1 + m + ... + m^(k-1)`, exact; 0 for `k = 0` (40_advance.md). -/
def geomSum (m : Nat) : Nat → Nat
  | 0 => 0
  | k + 1 => geomSum m k + m ^ k

/-- `c * G(k) mod 2^64`, with `G(k) = (1 + m + ... + m^(k-1)) mod 2^64` (40_advance.md, R102, R103). -/
def incMod (m c : Word) (k : Nat) : Word :=
  BitVec.ofNat 64 (c.toNat * geomSum m.toNat k)

/-- `bitlen(v)`: 0 for 0, else `1 + floor(log2 v)` (R7). -/
def bitlen (v : Word) : Nat :=
  if v.toNat = 0 then 0 else v.toNat.log2 + 1

/-- `popcount(v)`: how many of the 64 bits are 1 (R131). -/
def popcount (v : Word) : Nat :=
  (List.range 64).countP (fun i => v.getLsbD i)

/-- `-d mod 2^64 = (2^64 - d) mod 2^64`, formed by the host (R7, R105). -/
def negMod (d : Word) : Word :=
  BitVec.ofNat 64 (2 ^ 64 - d.toNat)

/-- An odd multiplier: the caller's precondition for stepping backward (R209). -/
def isOdd (m : Word) : Bool :=
  m.toNat % 2 == 1

end Sys2Proof.Machine
end

