-- ==== Sys2Proof/Machine/Script.lean ====
section
/-! DEFINITION. The host-script notation (30_encoding.md R79) and its pseudo-operations (R80, Table 30-4): a host with named
variables that drives the unit through step. The variables are the host's, no state of the unit (R21, R210, R211; log 12). -/

namespace Sys2Proof.Machine

/-- An argument of a line. -/
inductive Arg where
  /-- A literal (R79). -/
  | lit (v : Word)
  /-- A host variable, by its number (R79). -/
  | var (n : Nat)
  /-- `(2^64 - k) mod 2^64` of the value of another argument, computed by the host when the line runs: the "computed" `delta`
  field of Table 30-4 (R80, R105). No spelling of R79 stands for it (log 17). -/
  | complement (k : Arg)
deriving DecidableEq, Repr

/-- The two real line forms (R79). -/
inductive Line where
  /-- `advance rd, rs, d, m, c`. -/
  | advance (rd : Nat) (rs d m c : Arg)
  /-- `reset`: hold `rst = 1` for one tick. -/
  | reset
deriving DecidableEq, Repr

/-- `step rd, rs, m, c` (R80). -/
def Line.step (rd : Nat) (rs m c : Arg) : Line :=
  .advance rd rs (.lit 1) m c

/-- `back rd, rs, m, c` (R80). -/
def Line.back (rd : Nat) (rs m c : Arg) : Line :=
  .advance rd rs (.lit 0xFFFFFFFFFFFFFFFF) m c

/-- `jump rd, rs, k, m, c` (R80). DESIGN CHOICE (log 17): Table 30-4 says only `0 <= k < 2^64`, and the model takes `k` to be any
argument, a literal or a host variable. -/
def Line.jump (rd : Nat) (rs k m c : Arg) : Line :=
  .advance rd rs k m c

/-- `jumpback rd, rs, k, m, c` (R80, R105). DESIGN CHOICE (log 17): `k` is any argument, a literal or a host variable; its
complement is taken from the value it has when the line runs. -/
def Line.jumpback (rd : Nat) (rs k m c : Arg) : Line :=
  .advance rd rs (.complement k) m c

/-- `nop rd, rs, m, c` (R80). -/
def Line.nop (rd : Nat) (rs m c : Arg) : Line :=
  .advance rd rs (.lit 0) m c

/-- A host with its variables, and its unit. -/
structure Session where
  vars : List (Nat × Word)
  machine : State
deriving DecidableEq, Repr

/-- The value of an argument; none for a variable never assigned (log 12). -/
def Session.value (h : Session) : Arg → Option Word
  | .lit v => some v
  | .var n => (h.vars.find? (fun p => p.1 == n)).map Prod.snd
  | .complement k => (h.value k).map negMod

/-- The host variable `rd` is replaced whole (R211). -/
def Session.assign (h : Session) (rd : Nat) (v : Word) : Session :=
  { h with vars := (rd, v) :: h.vars.filter (fun p => p.1 != rd) }

/-- One step of the unit with the host's next move given; none if the unit does not answer a next state. -/
def Session.act (h : Session) (m : HostMove) : Option Session :=
  match step { h.machine with moves := m :: h.machine.moves } with
  | .next t => some { h with machine := t }
  | .fault _ => none
  | .refused _ => none

/-- Ports with `rst = 1` and no handshake offered, "the simplest discipline" (R206). -/
def Inputs.resetting : Inputs :=
  { Inputs.quiet with rst := true }

/-- One line of a script: an ADVANCE of the arguments' values, whose response is assigned to `rd`; or one tick of reset (R79). -/
def Session.line (h : Session) : Line → Option Session
  | .advance rd rs d m c =>
    match h.value rs, h.value d, h.value m, h.value c with
    | some s, some k, some a, some b =>
      match h.act (.request (encodeReq s k a b)) with
      | some h' => h'.machine.taken.getLast?.map (fun v => h'.assign rd v)
      | none => none
    | _, _, _, _ => none
  | .reset => h.act (.tick .resetting)

/-- A script: its lines in order (R79). -/
def Session.script (h : Session) : List Line → Option Session
  | [] => some h
  | l :: rest =>
    match h.line l with
    | some h' => h'.script rest
    | none => none

end Sys2Proof.Machine
end

