-- ==== Sys2Proof/Safety.lean ====
section
/-! DEFINITION. Runs, invariants and relations the statements speak of: what the host does over several ticks, the loop invariant
(40_advance.md R102), the machine's own invariant (R113, R125), and what the host can observe (10_state.md R33, R36). -/

namespace Sys2Proof.Machine

/-! ### Runs under a host -/

/-- One step with the host's next move given (R216: the host changes port values between steps). -/
def stepWith (m : HostMove) (s : State) : Host.Outcome State Fault Refusal :=
  step { s with moves := m :: s.moves }

/-- The ticks of a run, the host driving the listed inputs one after the other. -/
def runTicks : List Inputs → State → Host.Outcome State Fault Refusal
  | [], s => .next s
  | p :: rest, s =>
    match stepWith (.tick p) s with
    | .next t => runTicks rest t
    | .fault r => .fault r
    | .refused r => .refused r

/-- A run safe to the end: every tick answers a next state (R170: no step faults; R76: no step is refused). -/
def SafeRun (ps : List Inputs) (s : State) : Prop :=
  ∃ t, runTicks ps s = .next t

/-- No RESET step in a run (R57, R101, R180 (d)). -/
def NoReset (ps : List Inputs) : Prop :=
  ∀ p ∈ ps, p.rst = false

/-- The operands of the requests accepted in a run, in order: those on the ports at the ticks with `rst = 0`, PHASE = IDLE
and `req_valid = 1` (R205). -/
def acceptedIn : List Inputs → State → List Inputs
  | [], _ => []
  | p :: rest, s =>
    match stepWith (.tick p) s with
    | .next t =>
      if p.rst = false ∧ s.phase = .idle ∧ p.reqValid = true then p :: acceptedIn rest t else acceptedIn rest t
    | .fault _ => []
    | .refused _ => []

/-- The control steps of a run, in order: at each tick the one decoded from the vector formed just before it (R74, R128). -/
def stepsIn : List Inputs → State → List Instr
  | [], _ => []
  | p :: rest, s =>
    match decode (.sel (selectionVector (s.drive p))), stepWith (.tick p) s with
    | .ok i, .next t => i :: stepsIn rest t
    | _, _ => []

/-- What an ADVANCE of these operands returns, issued in the state `s`: the response the host took last (R101). -/
def returned (st d m c : Word) (s : State) : Option Word :=
  match exec (.advance st d m c) s with
  | .next t => t.taken.getLast?
  | .fault _ => none
  | .refused _ => none

/-- The value ADVANCE is to return for the request on the ports (R58, R100). -/
def answer (p : Inputs) : Word :=
  advanceValue p.reqState p.reqDelta p.reqMult p.reqInc

/-! ### Invariants -/

/-- The loop invariant of R102, after the ACCEPT of `(st, d, m, c)` and `i` iteration steps. -/
structure LoopInvariant (st d m c : Word) (i : Nat) (s : State) : Prop where
  phase : s.phase = .run
  bound : i ≤ bitlen d
  state : s.state = st
  delta : s.delta.toNat = d.toNat / 2 ^ i
  accMult : s.accMult = powMod m (d.toNat % 2 ^ i)
  accInc : s.accInc = incMod m c (d.toNat % 2 ^ i)
  curMult : s.curMult = powMod m (2 ^ i)
  curInc : s.curInc = incMod m c (2 ^ i)

/-- The accumulated and the doubling map commute: both forms of composition have the same increment (R113). -/
def MapsCommute (s : State) : Prop :=
  s.accInc * s.curMult + s.curInc = s.accMult * s.curInc + s.accInc

/-- What the registers of an operation in progress satisfy at every step: in RUN and DONE the two maps commute (R113); in DONE
the loop is exhausted and RESULT is the accumulated map applied to STATE (R125, R130). -/
structure OperationInvariant (s : State) : Prop where
  commute : s.phase ≠ .idle → MapsCommute s
  exhausted : s.phase = .done → s.delta = 0
  applied : s.phase = .done → s.result = s.accMult * s.state + s.accInc

/-- The same to a host, now and at every later tick: the same phase, the same host, and the same values in the registers that
some later step or output can still read (R33, R36, R37). -/
structure SameToHost (s t : State) : Prop where
  phase : s.phase = t.phase
  ports : s.ports = t.ports
  moves : s.moves = t.moves
  taken : s.taken = t.taken
  draws : s.draws = t.draws
  running : s.phase = .run → s.state = t.state ∧ s.delta = t.delta ∧ s.accMult = t.accMult ∧ s.accInc = t.accInc ∧
    s.curMult = t.curMult ∧ s.curInc = t.curInc
  finished : s.phase = .done → s.result = t.result

/-- The eight registers of two states agree (R20). -/
structure SameRegisters (s t : State) : Prop where
  state : s.state = t.state
  delta : s.delta = t.delta
  accMult : s.accMult = t.accMult
  accInc : s.accInc = t.accInc
  curMult : s.curMult = t.curMult
  curInc : s.curInc = t.curInc
  result : s.result = t.result
  phase : s.phase = t.phase

end Sys2Proof.Machine
end

