-- ==== Sys2Proof/Certificates/Slice0/Obligations.lean ====
section
/-! DEFINITION. The statements about the model, each from the numbered rules of spec/ its docstring names. -/

open Sys2Proof Sys2Proof.Machine

/-! ### The step, the selection vector, the encodings -/

/-- R74, R75, R128. A step runs the operation decoded at it. What is decoded: at a tick, the vector formed from the registers
and the ports the host drives at this tick; for an ADVANCE the host issues, its request word. With no move listed the host
drives free values (log 3). -/
def Obligations.StepRunsTheDecodedOperation : Prop :=
  ∀ s : State,
    (∀ i, decode (fetch s).1 = .ok i → step s = exec i (fetch s).2) ∧
    (∀ p rest, s.moves = .tick p :: rest →
      fetch s = (.sel (selectionVector { s with ports := p, moves := rest, draws := s.draws + 1 }),
        { s with ports := p, moves := rest, draws := s.draws + 1 })) ∧
    (∀ w rest, s.moves = .request w :: rest →
      fetch s = (.req w, { s with moves := rest, draws := s.draws + 1 })) ∧
    (s.moves = [] →
      fetch s = (.sel (selectionVector { s with ports := Inputs.free s.draws, moves := [], draws := s.draws + 1 }),
        { s with ports := Inputs.free s.draws, moves := [], draws := s.draws + 1 }))

/-- R74. Every bit of `SEL[6:0] = {rst, PHASE[1], PHASE[0], req_valid, dz, b0, rsp_ready}`. -/
def Obligations.SelectionVectorLayout : Prop :=
  ∀ s : State,
    (selectionVector s).getLsbD 6 = s.ports.rst ∧
    (selectionVector s).getLsbD 5 = decide (s.phase = .done) ∧
    (selectionVector s).getLsbD 4 = decide (s.phase = .run) ∧
    (selectionVector s).getLsbD 3 = s.ports.reqValid ∧
    (selectionVector s).getLsbD 2 = decide (s.delta = 0) ∧
    (selectionVector s).getLsbD 1 = s.delta.getLsbD 0 ∧
    (selectionVector s).getLsbD 0 = s.ports.rspReady

/-- R76. How many of the 128 vectors each row takes; no two rows accept one vector; the two FINISH vectors with `dz = 1` and
`b0 = 1` are formed in no state. The 16 reserved vectors are refused by name. In every state exactly one row accepts. -/
def Obligations.ControlTableTotalAndDisjoint : Prop :=
  (List.range 128).countP (fun n => decodeTableWord 7 n == some .reset) = 64 ∧
  (List.range 128).countP (fun n => decodeTableWord 7 n == some .wait) = 8 ∧
  (List.range 128).countP (fun n => decodeTableWord 7 n == some .accept) = 8 ∧
  (List.range 128).countP (fun n => decodeTableWord 7 n == some .iterSkip) = 4 ∧
  (List.range 128).countP (fun n => decodeTableWord 7 n == some .iterCompose) = 4 ∧
  (List.range 128).countP (fun n => decodeTableWord 7 n == some .finish) = 8 ∧
  (List.range 128).countP (fun n => decodeTableWord 7 n == some .hold) = 8 ∧
  (List.range 128).countP (fun n => decodeTableWord 7 n == some .deliver) = 8 ∧
  (List.range 128).countP (fun n => decodeTableWord 7 n == none) = 16 ∧
  (∀ w : SelWord, w &&& 0x70 = 0x30 ↔ decode (.sel w) = .error (.reservedSelection w)) ∧
  (∀ w : SelWord, ∀ r ∈ selTable, ∀ q ∈ selTable, r.accepts w = true → q.accepts w = true → r = q) ∧
  (∀ s : State, ((selectionVector s).getLsbD 2 && (selectionVector s).getLsbD 1) = false) ∧
  (∀ s : State, ∃! r : SelRow, r ∈ selTable ∧ r.accepts (selectionVector s) = true)

/-- R71, Table 30-1. Where the four fields of a request word lie, by weight, and that the decoder reads them there. -/
def Obligations.RequestWordLayout : Prop :=
  (∀ st d m c : Word, (encodeReq st d m c).toNat =
    c.toNat * 2 ^ 192 + m.toNat * 2 ^ 128 + d.toNat * 2 ^ 64 + st.toNat) ∧
  (∀ w : ReqWord, decode (.req w) = .ok (.advance (BitVec.ofNat 64 w.toNat) (BitVec.ofNat 64 (w.toNat / 2 ^ 64))
    (BitVec.ofNat 64 (w.toNat / 2 ^ 128)) (BitVec.ofNat 64 (w.toNat / 2 ^ 192))))

/-- R71, R75. Decode and encode agree: every well-formed operation comes back from its encoding, whatever stands in the bits its
row ignores; and every word that decodes to an operation is one of that operation's encodings. -/
def Obligations.DecodeAndEncodeAgree : Prop :=
  (∀ (i : Instr) (ignored : SelWord), i.wellFormed = true → decode (encodeWith i ignored) = .ok i) ∧
  (∀ (e : Encoded) (i : Instr), decode e = .ok i → e.wellFormed = true ∧ ∃ ignored, encodeWith i ignored = e)

/-- Words written out from Table 30-3 and Table 30-1 decode to the operations they stand for. -/
def Obligations.WrittenOutWordsDecode : Prop :=
  decode (.sel 0b1001001) = .ok .reset ∧ decode (.sel 0b0000111) = .ok .wait ∧
  decode (.sel 0b0001000) = .ok .accept ∧ decode (.sel 0b0011001) = .ok .iterSkip ∧
  decode (.sel 0b0011011) = .ok .iterCompose ∧ decode (.sel 0b0011101) = .ok .finish ∧
  decode (.sel 0b0101110) = .ok .hold ∧ decode (.sel 0b0101111) = .ok .deliver ∧
  decode (.req 0x0000000000000010_5851F42D4C957F2D_FFFFFFFFFFFFFFFF_0000000000000005) =
    .ok (.advance 5 0xFFFFFFFFFFFFFFFF 0x5851F42D4C957F2D 0x10)

/-! ### The eight control steps: selection, writes, and by the record each equals, the frame -/

/-- R120. RESET: selected when `rst = 1`, whatever else; writes PHASE only. The abandoned operation is never answered: over any
run without reset that follows, what the host takes is a beginning of the answers to the requests accepted in that run. -/
def Obligations.ResetStep : Prop :=
  (∀ w : SelWord, decode (.sel w) = .ok .reset ↔ w &&& 0x40 = 0x40) ∧
  (∀ s : State, exec .reset s = .next { s with phase := .idle }) ∧
  (∀ (s : State) (ps : List Inputs), NoReset ps →
    ∃ u t, exec .reset s = .next u ∧ runTicks ps u = .next t ∧
      s.taken <+: t.taken ∧ t.taken <+: s.taken ++ (acceptedIn ps u).map answer)

/-- R121. WAIT: selected with no reset, IDLE, no request; writes nothing. -/
def Obligations.WaitStep : Prop :=
  (∀ w : SelWord, decode (.sel w) = .ok .wait ↔ w &&& 0x78 = 0x00) ∧
  (∀ s : State, exec .wait s = .next s)

/-- R122. ACCEPT: selected with no reset, IDLE, a request; copies the four operand ports, sets the accumulator pair to the
identity and PHASE to RUN; RESULT is not written. -/
def Obligations.AcceptStep : Prop :=
  (∀ w : SelWord, decode (.sel w) = .ok .accept ↔ w &&& 0x78 = 0x08) ∧
  (∀ s : State, exec .accept s = .next
    { s with state := s.ports.reqState, delta := s.ports.reqDelta, accMult := 1, accInc := 0,
             curMult := s.ports.reqMult, curInc := s.ports.reqInc, phase := .run })

/-- R123. ITER_SKIP: selected with no reset, RUN, DELTA not 0, bit 0 clear; squares the doubling pair and shifts DELTA. It is
never the last iteration step. -/
def Obligations.IterSkipStep : Prop :=
  (∀ w : SelWord, decode (.sel w) = .ok .iterSkip ↔ w &&& 0x76 = 0x10) ∧
  (∀ s : State, exec .iterSkip s = .next
    { s with curInc := (s.curMult + 1) * s.curInc, curMult := s.curMult * s.curMult, delta := s.delta >>> 1 }) ∧
  (∀ d : Word, d ≠ 0 → d.getLsbD 0 = false → d >>> 1 ≠ 0)

/-- R124. ITER_COMPOSE: selected with no reset, RUN, DELTA not 0, bit 0 set; every right side uses the values before the step. -/
def Obligations.IterComposeStep : Prop :=
  (∀ w : SelWord, decode (.sel w) = .ok .iterCompose ↔ w &&& 0x76 = 0x12) ∧
  (∀ s : State, exec .iterCompose s = .next
    { s with accInc := s.accInc * s.curMult + s.curInc, accMult := s.accMult * s.curMult,
             curInc := (s.curMult + 1) * s.curInc, curMult := s.curMult * s.curMult, delta := s.delta >>> 1 })

/-- R125. FINISH: selected with no reset, RUN, DELTA = 0; RESULT becomes the accumulated map of STATE, PHASE becomes DONE. -/
def Obligations.FinishStep : Prop :=
  (∀ w : SelWord, decode (.sel w) = .ok .finish ↔ w &&& 0x74 = 0x14) ∧
  (∀ s : State, exec .finish s = .next { s with result := s.accMult * s.state + s.accInc, phase := .done })

/-- R126. HOLD: selected with no reset, DONE, host not ready; writes nothing, so in DONE `rsp_valid` stays 1, `rsp_result` RESULT and
`req_ready` 0. -/
def Obligations.HoldStep : Prop :=
  (∀ w : SelWord, decode (.sel w) = .ok .hold ↔ w &&& 0x71 = 0x20) ∧
  (∀ s : State, exec .hold s = .next s) ∧
  (∀ s : State, s.phase = .done → ∃ t, exec .hold s = .next t ∧ t.rspValid = true ∧ t.reqReady = false ∧
    ∀ read, t.rspResult read = s.result)

/-- R127. DELIVER: selected with no reset, DONE, host ready; the host takes RESULT (the list `taken` is the model's own,
log 5), PHASE becomes IDLE, no data register is written; after it `rsp_result` is a free value (log 4) and `req_ready` is 1. -/
def Obligations.DeliverStep : Prop :=
  (∀ w : SelWord, decode (.sel w) = .ok .deliver ↔ w &&& 0x71 = 0x21) ∧
  (∀ s : State, exec .deliver s = .next { s with taken := s.taken ++ [s.result], phase := .idle }) ∧
  (∀ s : State, ∃ t, exec .deliver s = .next t ∧ t.rspValid = false ∧ t.reqReady = true ∧
    ∀ read, t.rspResult read = Config.freeRsp t.draws read)

/-! ### Outputs and reset -/

/-- R32, R33. The outputs are functions of the registers: `req_ready` in IDLE, `rsp_valid` in DONE, neither in RUN; `rsp_result` is
RESULT in DONE and a free value of the read elsewhere (log 4); the input ports reach no output. -/
def Obligations.OutputsFollowPhase : Prop :=
  ∀ (s : State) (p : Inputs) (read : Nat),
    (s.reqReady = true ↔ s.phase = .idle) ∧
    (s.rspValid = true ↔ s.phase = .done) ∧
    (s.reqReady = false ∧ s.rspValid = false ↔ s.phase = .run) ∧
    (s.phase = .done → s.rspResult read = s.result) ∧
    (s.phase ≠ .done → s.rspResult read = Config.freeRsp s.draws read) ∧
    { s with ports := p }.reqReady = s.reqReady ∧
    { s with ports := p }.rspValid = s.rspValid ∧
    { s with ports := p }.rspResult read = s.rspResult read

/-- R35. After a RESET step: PHASE = IDLE, `req_ready = 1`, `rsp_valid = 0`, the seven data registers as they were; and the
model's reset state is in that phase. The reset values of the data registers are the model's (log 1) and not stated. -/
def Obligations.AfterResetIdle : Prop :=
  (∀ s : State, ∃ t, exec .reset s = .next t ∧ t.phase = .idle ∧ t.reqReady = true ∧ t.rspValid = false ∧
    (∀ read, t.rspResult read = Config.freeRsp t.draws read) ∧
    t.state = s.state ∧ t.delta = s.delta ∧ t.accMult = s.accMult ∧ t.accInc = s.accInc ∧
    t.curMult = s.curMult ∧ t.curInc = s.curInc ∧ t.result = s.result) ∧
  State.reset.phase = .idle ∧ State.reset.reqReady = true ∧ State.reset.rspValid = false

/-! ### The data path -/

/-- R150 to R155. The operators are exact arithmetic reduced modulo 2^64, with the corner cases the rules list. -/
def Obligations.OperatorsExactModulo : Prop :=
  ∀ a b c : Word,
    (mul64 a b).toNat = a.toNat * b.toNat % 2 ^ 64 ∧
    (add64 a b).toNat = (a.toNat + b.toNat) % 2 ^ 64 ∧
    (mac64 a b c).toNat = (a.toNat * b.toNat + c.toNat) % 2 ^ 64 ∧
    mac64 a b c = add64 (mul64 a b) c ∧
    (inc64 a).toNat = (a.toNat + 1) % 2 ^ 64 ∧ inc64 a = add64 a 1 ∧
    (mul64 (inc64 a) b).toNat = (a.toNat + 1) * b.toNat % 2 ^ 64 ∧
    (lsr1 a).toNat = a.toNat / 2 ∧ (lsr1 a).getLsbD 63 = false ∧
    (dz a = true ↔ a = 0) ∧ b0 a = a.getLsbD 0 ∧
    mul64 a 0 = 0 ∧ mul64 a 1 = a ∧ (mul64 0xFFFFFFFFFFFFFFFF a).toNat = (2 ^ 64 - a.toNat) % 2 ^ 64 ∧
    mul64 0x8000000000000000 2 = 0 ∧ mul64 0xFFFFFFFFFFFFFFFF 0xFFFFFFFFFFFFFFFF = 1 ∧
    mul64 a b = mul64 b a ∧ mul64 (mul64 a b) c = mul64 a (mul64 b c) ∧
    mul64 a (add64 b c) = add64 (mul64 a b) (mul64 a c) ∧
    add64 0xFFFFFFFFFFFFFFFF 1 = 0 ∧ inc64 0xFFFFFFFFFFFFFFFF = 0 ∧
    lsr1 1 = 0 ∧ lsr1 0 = 0 ∧ lsr1 0xFFFFFFFFFFFFFFFF = 0x7FFFFFFFFFFFFFFF

/-- R161. The unsigned and the two's-complement readings of the operands give the same result bits. -/
def Obligations.SignedReadingsAgree : Prop :=
  ∀ a b c : Word,
    (mul64 a b).toInt = (a.toInt * b.toInt).bmod (2 ^ 64) ∧
    (add64 a b).toInt = (a.toInt + b.toInt).bmod (2 ^ 64) ∧
    (mac64 a b c).toInt = (a.toInt * b.toInt + c.toInt).bmod (2 ^ 64) ∧
    (inc64 a).toInt = (a.toInt + 1).bmod (2 ^ 64)

/-- R156 to R159. What the actions compute, and that COMPOSE is "apply the first, then the second", SQUARE the map applied
twice, APPLY the map of the pair. -/
def Obligations.ActionsAreAffineMaps : Prop :=
  ∀ (p q : Affine) (x : Word),
    compose p q = ⟨p.mult * q.mult, p.inc * q.mult + q.inc⟩ ∧
    square p = ⟨p.mult * p.mult, (p.mult + 1) * p.inc⟩ ∧
    (shift x).toNat = x.toNat / 2 ∧
    applyPair p x = lcgStep p.mult p.inc x ∧
    applyPair (compose p q) x = applyPair q (applyPair p x) ∧
    applyPair (square p) x = applyPair p (applyPair p x) ∧
    applyPair ⟨1, 0⟩ x = x ∧
    square ⟨0xFFFFFFFFFFFFFFFF, x⟩ = ⟨1, 0⟩ ∧ square ⟨1, x⟩ = ⟨1, 2 * x⟩ ∧ square ⟨0, x⟩ = ⟨0, x⟩

/-- R103, R113. Pairs that are powers of one map: COMPOSE adds the exponents, in either form of the increment, and SQUARE
doubles the exponent. -/
def Obligations.PowersOfOneMapCompose : Prop :=
  ∀ (m c : Word) (j k : Nat),
    compose ⟨powMod m j, incMod m c j⟩ ⟨powMod m k, incMod m c k⟩ = ⟨powMod m (j + k), incMod m c (j + k)⟩ ∧
    mac64 (powMod m j) (incMod m c k) (incMod m c j) = incMod m c (j + k) ∧
    square ⟨powMod m k, incMod m c k⟩ = ⟨powMod m (2 * k), incMod m c (2 * k)⟩

/-- R103. The closed form of `f^k`, and the two identities of `G`. -/
def Obligations.ClosedFormOfIteration : Prop :=
  (∀ (m c : Word) (k : Nat) (x : Word), applyPair ⟨powMod m k, incMod m c k⟩ x = lcgIter m c k x) ∧
  (∀ m j k : Nat, geomSum m (j + k) = m ^ j * geomSum m k + geomSum m j) ∧
  (∀ m k : Nat, geomSum m (2 * k) = (m ^ k + 1) * geomSum m k)

/-- R163. An element is invertible for `mul64` exactly when it is odd; powers of odd and of even elements. -/
def Obligations.UnitsAreTheOddValues : Prop :=
  ∀ m : Word,
    (isOdd m = true ↔ ∃ n : Word, mul64 m n = 1) ∧
    (isOdd m = true → powMod m (2 ^ 63) = 1) ∧
    (isOdd m = false → powMod m 64 = 0)

/-- R116. For odd `m` and any `c`, `f^(2^64)` is the identity map, and its pair is the identity pair. -/
def Obligations.FullCycleIsIdentity : Prop :=
  ∀ m c : Word, isOdd m = true →
    powMod m (2 ^ 64) = 1 ∧ incMod m c (2 ^ 64) = 0 ∧ ∀ x : Word, lcgIter m c (2 ^ 64) x = x

/-! ### ADVANCE -/

/-- R100. In every state every ADVANCE completes and returns `f^delta(state)`, and every request word is an ADVANCE. -/
def Obligations.AdvanceReturnsIteratedMap : Prop :=
  (∀ (st d m c : Word) (s : State), ∃ t, exec (.advance st d m c) s = .next t ∧
    t.phase = .idle ∧ t.result = advanceValue st d m c ∧ t.taken.getLast? = some (advanceValue st d m c)) ∧
  (∀ w : ReqWord, ∃ st d m c, decode (.req w) = .ok (.advance st d m c))

/-- R101, R102, R57. All that an ADVANCE leaves: the registers at the values of the loop invariant after `bitlen(delta)` iteration
steps, and one response taken for it. A response still due is taken before it (the model's reading, log 7): of an operation in
DONE its RESULT, of one in RUN the doubling map applied DELTA times to the accumulated map of STATE. The ports are left as the
host presented them (log 6); the moves and the draw counter are not changed. -/
def Obligations.AdvanceLeavesExactly : Prop :=
  ∀ (st d m c : Word) (s : State), exec (.advance st d m c) s = .next
    { state := st, delta := 0,
      accMult := powMod m d.toNat, accInc := incMod m c d.toNat,
      curMult := powMod m (2 ^ bitlen d), curInc := incMod m c (2 ^ bitlen d),
      result := advanceValue st d m c, phase := .idle,
      ports := ⟨false, true, st, d, m, c, true⟩,
      moves := s.moves,
      taken := s.taken ++
        (match s.phase with
         | .idle => []
         | .run => [lcgIter s.curMult s.curInc s.delta.toNat (s.accMult * s.state + s.accInc)]
         | .done => [s.result]) ++ [advanceValue st d m c],
      draws := s.draws }

/-- R101, R58, R208, R207. The control steps realise ADVANCE: from IDLE, an ACCEPT tick of a request, `bitlen(delta) + 1` ticks on
which the host drives anything but reset, any number of ticks with the host not ready, and one with it ready, leave the registers
and the taken responses that the one step ADVANCE leaves. -/
def Obligations.ControlStepsRealiseAdvance : Prop :=
  ∀ (s : State) (p : Inputs) (working holding : List Inputs) (q : Inputs),
    s.phase = .idle → p.rst = false → p.reqValid = true →
    NoReset working → working.length = bitlen p.reqDelta + 1 →
    (∀ h ∈ holding, h.rst = false ∧ h.rspReady = false) →
    q.rst = false → q.rspReady = true →
    ∃ t u, runTicks (p :: working ++ holding ++ [q]) s = .next t ∧
      exec (.advance p.reqState p.reqDelta p.reqMult p.reqInc) s = .next u ∧
      SameRegisters t u ∧ t.taken = u.taken

/-- R102. The loop invariant: ACCEPT establishes it, every iteration step keeps it whatever the ports carry but reset, and it
says that the two pairs are the maps `f^(k_i)` and `f^(2^i)`. -/
def Obligations.LoopInvariantKept : Prop :=
  (∀ s : State, ∃ t, exec .accept s = .next t ∧
    LoopInvariant s.ports.reqState s.ports.reqDelta s.ports.reqMult s.ports.reqInc 0 t) ∧
  (∀ (st d m c : Word) (i : Nat) (s : State) (p : Inputs),
    LoopInvariant st d m c i s → s.delta ≠ 0 → p.rst = false →
    ∃ t, stepWith (.tick p) s = .next t ∧ LoopInvariant st d m c (i + 1) t) ∧
  (∀ (st d m c : Word) (i : Nat) (s : State) (x : Word), LoopInvariant st d m c i s →
    applyPair s.acc x = lcgIter m c (d.toNat % 2 ^ i) x ∧ applyPair s.cur x = lcgIter m c (2 ^ i) x)

/-- R106. Identity: `delta = 0` returns the state, for every multiplier. -/
def Obligations.ZeroDeltaIsIdentity : Prop :=
  ∀ (st m c : Word) (s : State), returned st 0 m c s = some st

/-- R107. Inverse round trip, for odd `mult`: stepping by `d` and then by `-d mod 2^64` returns the original state. -/
def Obligations.RoundTripReturnsState : Prop :=
  ∀ (st d m c : Word) (s : State), isOdd m = true →
    ∃ t u, exec (.advance st d m c) s = .next t ∧ exec (.advance t.result (negMod d) m c) t = .next u ∧
      u.result = st ∧ u.taken.getLast? = some st

/-- R108. Composition: two ADVANCEs return what one by the sum modulo 2^64 returns, for odd `mult` always, for even `mult` when
the sum does not wrap; and it can fail for even `mult` when the sum wraps. -/
def Obligations.StepCountsAdd : Prop :=
  (∀ (st d₁ d₂ m c : Word) (s : State), isOdd m = true ∨ d₁.toNat + d₂.toNat < 2 ^ 64 →
    ∃ t u v, exec (.advance st d₁ m c) s = .next t ∧ exec (.advance t.result d₂ m c) t = .next u ∧
      exec (.advance st (d₁ + d₂) m c) s = .next v ∧ u.result = v.result) ∧
  (∃ (st d₁ d₂ m c v : Word), isOdd m = false ∧ 2 ^ 64 ≤ d₁.toNat + d₂.toNat ∧
    returned st d₁ m c State.reset = some v ∧
    returned v d₂ m c State.reset ≠ returned st (d₁ + d₂) m c State.reset)

/-- R111. For odd `mult` and every `delta` the operator is a bijection of the 64-bit states: every value is returned for exactly one
state; and going by `delta` and then by `-delta` is the identity. -/
def Obligations.OddMultiplierBijection : Prop :=
  ∀ (d m c : Word) (s : State), isOdd m = true →
    (∀ v : Word, ∃! st : Word, returned st d m c s = some v) ∧
    (∀ st : Word, ∃ v, returned st d m c s = some v ∧ returned v (negMod d) m c s = some st)

/-- R115. The multipliers 1, 0 and `2^64 - 1`, and even multipliers with `delta >= 64`. -/
def Obligations.SpecialMultipliers : Prop :=
  ∀ (st d c : Word) (s : State),
    returned st d 1 c s = some (st + d * c) ∧
    returned st 0 0 c s = some st ∧ (d ≠ 0 → returned st d 0 c s = some c) ∧
    (d.getLsbD 0 = false → returned st d 0xFFFFFFFFFFFFFFFF c s = some st) ∧
    (d.getLsbD 0 = true → returned st d 0xFFFFFFFFFFFFFFFF c s = some (c - st)) ∧
    lcgStep 0xFFFFFFFFFFFFFFFF c st = c - st ∧ square ⟨0xFFFFFFFFFFFFFFFF, c⟩ = ⟨1, 0⟩ ∧
    (∀ m : Word, isOdd m = false → 64 ≤ d.toNat → returned st d m c s = some (incMod m c d.toNat))

/-- R112. With an even multiplier the request is computed like any other and stepping back does not undo the step: the rule's own
example. -/
def Obligations.EvenMultiplierDoesNotInvert : Prop :=
  returned 0x8000000000000001 1 2 0 State.reset = some 2 ∧
  returned 2 0xFFFFFFFFFFFFFFFF 2 0 State.reset = some 0 ∧
  returned 1 1 2 0 State.reset = some 2

/-! ### Sequencing -/

/-- R170. No step of the machine and no operation faults or is refused, for any register contents and any input values. -/
def Obligations.EveryStepCompletes : Prop :=
  (∀ s : State, ∃ t, step s = .next t) ∧ (∀ (i : Instr) (s : State), ∃ t, exec i s = .next t)

/-- R129, R173, Table 41-1. The phase after a tick. -/
def Obligations.PhaseGraph : Prop :=
  ∀ (s : State) (p : Inputs), ∃ t, stepWith (.tick p) s = .next t ∧
    t.phase = (if p.rst then .idle else
      match s.phase with
      | .idle => if p.reqValid then .run else .idle
      | .run => if s.delta = 0 then .done else .run
      | .done => if p.rspReady then .idle else .done)

/-- R101, R130, R131. From phase RUN with no reset the steps are `bitlen(DELTA)` iteration steps, ITER_COMPOSE for every 1 bit of DELTA
from the least significant on and ITER_SKIP for every 0 bit, and then FINISH, whatever the ports carry; at most 64. The counts
of the rule's examples. -/
def Obligations.IterationsFollowTheBits : Prop :=
  (∀ (s : State) (ps : List Inputs), s.phase = .run → NoReset ps → ps.length = bitlen s.delta + 1 →
    stepsIn ps s = (List.range (bitlen s.delta)).map
      (fun i => if s.delta.getLsbD i then Instr.iterCompose else Instr.iterSkip) ++ [.finish] ∧
    (stepsIn ps s).count .iterCompose = popcount s.delta ∧
    (stepsIn ps s).count .iterSkip = bitlen s.delta - popcount s.delta ∧
    bitlen s.delta ≤ 64 ∧
    ∃ t, runTicks ps s = .next t ∧ t.phase = .done ∧ t.delta = 0 ∧ t.taken = s.taken) ∧
  bitlen 0 = 0 ∧ bitlen 1 = 1 ∧ bitlen 5 = 3 ∧ bitlen 1000 = 10 ∧
  (∀ d : Word, 2 ^ 63 ≤ d.toNat → bitlen d = 64) ∧ popcount 0xFFFFFFFFFFFFFFFF = 64

/-- R113, R125, R130. The machine's invariant is kept by every step, whatever the host does. -/
def Obligations.StepKeepsOperationInvariant : Prop :=
  ∀ s t : State, OperationInvariant s → step s = .next t → OperationInvariant t

/-- The machine's invariant holds in the reset state. -/
def Obligations.ResetMeetsOperationInvariant : Prop :=
  OperationInvariant State.reset

/-- R203, R206. A tick with `rst = 1`: PHASE becomes IDLE and nothing else of the unit changes, so no request is accepted and no
response delivered though both be offered; and while no new request is presented none is ever delivered for what was abandoned. -/
def Obligations.ResetAbandonsOperation : Prop :=
  ∀ (s : State) (p : Inputs), p.rst = true →
    stepWith (.tick p) s = .next { s with phase := .idle, ports := p, draws := s.draws + 1 } ∧
    ∀ ps : List Inputs, NoReset ps → (∀ q ∈ ps, q.reqValid = false) →
      ∃ t, runTicks (p :: ps) s = .next t ∧ t.taken = s.taken ∧ t.phase = .idle ∧ t.reqReady = true

/-- R126, R180, R207. While the host is not ready the unit holds: for any number of ticks the registers, `rsp_valid` and `rsp_result`
stay, and no request is accepted though one be offered. -/
def Obligations.HoldWaitsForTheHost : Prop :=
  ∀ (s : State) (ps : List Inputs), s.phase = .done → (∀ p ∈ ps, p.rst = false ∧ p.rspReady = false) →
    ∃ t, runTicks ps s = .next t ∧ SameRegisters s t ∧ t.taken = s.taken ∧ t.reqReady = false ∧ t.rspValid = true ∧
      ∀ read, t.rspResult read = s.result

/-- R173, R208. Which inputs matter: `rst` always; with `rst = 0`, in IDLE `req_valid` and with it the operands, in RUN none, in DONE
`rsp_ready`. Two ticks that agree there do the same to the registers and deliver the same. -/
def Obligations.OnlyNamedInputsMatter : Prop :=
  ∀ (s : State) (p q : Inputs), p.rst = q.rst →
    (p.rst = false → s.phase = .idle → p.reqValid = q.reqValid) →
    (p.rst = false → s.phase = .idle → p.reqValid = true → p.reqWord = q.reqWord) →
    (p.rst = false → s.phase = .done → p.rspReady = q.rspReady) →
    ∃ t u, stepWith (.tick p) s = .next t ∧ stepWith (.tick q) s = .next u ∧ SameRegisters t u ∧ t.taken = u.taken

/-- R36, R37, R58. Nothing of an earlier operation can be seen: two states that are the same to the host stay so at every step,
and show it the same outputs. -/
def Obligations.HistoryIsInvisible : Prop :=
  ∀ s t : State, SameToHost s t →
    ∃ s' t', step s = .next s' ∧ step t = .next t' ∧ SameToHost s' t' ∧
      s'.reqReady = t'.reqReady ∧ s'.rspValid = t'.rspValid ∧ ∀ read, s'.rspResult read = t'.rspResult read

/-- R57, R58. Requests and responses: over any run without reset from IDLE, the responses taken are the answers to the requests
accepted, in order, the last one still being due exactly when the run ends outside IDLE. -/
def Obligations.ResponsesFollowRequests : Prop :=
  ∀ (s : State) (ps : List Inputs), s.phase = .idle → NoReset ps →
    ∃ t, runTicks ps s = .next t ∧
      (t.phase = .idle → t.taken = s.taken ++ (acceptedIn ps s).map answer) ∧
      (t.phase ≠ .idle → acceptedIn ps s ≠ [] ∧ t.taken = s.taken ++ (acceptedIn ps s).dropLast.map answer)

/-- R20 to R28, Table 10-1, column "written by". A control step that is not named for a register leaves it. -/
def Obligations.OnlyNamedStepsWrite : Prop :=
  ∀ (i : Instr) (s t : State), exec i s = .next t → (∀ st d m c, i ≠ .advance st d m c) →
    (i ≠ .accept → t.state = s.state) ∧
    (i ≠ .accept → i ≠ .iterSkip → i ≠ .iterCompose → t.delta = s.delta ∧ t.curMult = s.curMult ∧ t.curInc = s.curInc) ∧
    (i ≠ .accept → i ≠ .iterCompose → t.accMult = s.accMult ∧ t.accInc = s.accInc) ∧
    (i ≠ .finish → t.result = s.result) ∧
    (i ≠ .reset → i ≠ .accept → i ≠ .finish → i ≠ .deliver → t.phase = s.phase) ∧
    (i ≠ .deliver → t.taken = s.taken) ∧
    t.ports = s.ports ∧ t.moves = s.moves ∧ t.draws = s.draws

/-! ### The host's side -/

/-- R79, R80, R105. In a host script `jump` and `jumpback` by `k`, a literal or a host variable (the model's choice, log 17), return
`f^k` and `f^(2^64 - k)`; with an odd multiplier, `jump` and then `jumpback` by a `k` that the assignment to `rd` does not change
give the variable its value back; `step` applies the one-step map, `back` undoes it, `nop` copies, and `reset` leaves the unit in
IDLE with the variables kept. -/
def Obligations.PseudoOperationsStepBothWays : Prop :=
  (∀ (h : Session) (rd : Nat) (st v m c : Word) (k : Arg), h.value k = some v →
    (∃ h', h.script [Line.jump rd (.lit st) k (.lit m) (.lit c)] = some h' ∧
      h'.value (.var rd) = some (advanceValue st v m c)) ∧
    (∃ h', h.script [Line.jumpback rd (.lit st) k (.lit m) (.lit c)] = some h' ∧
      h'.value (.var rd) = some (advanceValue st (negMod v) m c)) ∧
    (isOdd m = true → (∀ w, (h.assign rd w).value k = some v) →
      ∃ h', h.script [Line.jump rd (.lit st) k (.lit m) (.lit c), Line.jumpback rd (.var rd) k (.lit m) (.lit c)] = some h' ∧
        h'.value (.var rd) = some st)) ∧
  (∀ (h : Session) (rd : Nat) (st m c : Word), isOdd m = true →
    (∃ h', h.script [Line.step rd (.lit st) (.lit m) (.lit c)] = some h' ∧ h'.value (.var rd) = some (lcgStep m c st)) ∧
    (∃ h', h.script [Line.step rd (.lit st) (.lit m) (.lit c), Line.back rd (.var rd) (.lit m) (.lit c)] = some h' ∧
      h'.value (.var rd) = some st) ∧
    (∃ h', h.script [Line.nop rd (.lit st) (.lit m) (.lit c)] = some h' ∧ h'.value (.var rd) = some st) ∧
    (∃ h', h.line .reset = some h' ∧ h'.machine.phase = .idle ∧ h'.vars = h.vars))

/-- How a word of the opcode table comes to run (log 16): a request word placed is what the next step runs; a vector placed is what
the control forms at the next tick, if any state forms it, and its operation runs. -/
def Obligations.PlacedWordRuns : Prop :=
  (∀ (s : State) (w : ReqWord), step (s.withFetchWord 256 w.toNat) = exec (decodeReq w) { s with draws := s.draws + 1 }) ∧
  (∀ (s : State) (w : SelWord) (i : Instr), decode (.sel w) = .ok i →
    ∃ t, step (s.withFetchWord 7 w.toNat) = exec i t ∧ ((Encoded.sel w).formable = true → selectionVector t = w))
end

