-- ==== Sys2Proof/Laws/Datapath.lean ====
section
/-! SUPPORT. The operators of the data path as ring operations on 64-bit values (42_datapath.md R150 to R163), and what the four
actions mean as affine maps. -/

namespace Sys2Proof.Machine

/-! ### Operators -/

@[simp] theorem mul64_eq_mul (a b : Word) : mul64 a b = a * b :=
  BitVec.eq_of_toNat_eq (by simp [mul64, BitVec.toNat_mul])

@[simp] theorem add64_eq_add (a b : Word) : add64 a b = a + b :=
  BitVec.eq_of_toNat_eq (by simp [add64, BitVec.toNat_add])

@[simp] theorem mac64_eq (a b c : Word) : mac64 a b c = a * b + c := by
  simp [mac64]

@[simp] theorem inc64_eq (a : Word) : inc64 a = a + 1 := by
  simp [inc64]

theorem lsr1_toNat (a : Word) : (lsr1 a).toNat = a.toNat / 2 := by
  have := a.isLt
  simp only [lsr1, BitVec.toNat_ofNat]
  omega

theorem dz_eq_true (a : Word) : dz a = true ↔ a.toNat = 0 := by
  simp [dz]

theorem dz_eq_false (a : Word) : dz a = false ↔ a.toNat ≠ 0 := by
  simp [dz]

theorem b0_eq_true (a : Word) : b0 a = true ↔ a.toNat % 2 = 1 := by
  simp [b0, BitVec.getLsbD, Nat.testBit_zero]

theorem b0_eq_false (a : Word) : b0 a = false ↔ a.toNat % 2 = 0 := by
  simp [b0, BitVec.getLsbD, Nat.testBit_zero]

@[simp] theorem lcgStep_eq (m c x : Word) : lcgStep m c x = x * m + c :=
  BitVec.eq_of_toNat_eq (by simp [lcgStep, BitVec.toNat_mul, BitVec.toNat_add])

/-! ### Actions -/

theorem compose_eq (acc cur : Affine) :
    compose acc cur = ⟨acc.mult * cur.mult, acc.inc * cur.mult + cur.inc⟩ := by
  simp [compose, laneM1, laneM2]

theorem square_eq (cur : Affine) : square cur = ⟨cur.mult * cur.mult, (cur.mult + 1) * cur.inc⟩ := by
  simp [square, laneM3, laneM4]

theorem applyPair_eq (acc : Affine) (s : Word) : applyPair acc s = acc.mult * s + acc.inc := by
  simp [applyPair, laneM1]

theorem shift_toNat (d : Word) : (shift d).toNat = d.toNat / 2 :=
  lsr1_toNat d

/-! ### Iterates of the one-step map -/

theorem lcgIter_add (m c : Word) (j k : Nat) (x : Word) : lcgIter m c (j + k) x = lcgIter m c k (lcgIter m c j x) := by
  induction j generalizing x with
  | zero => simp [lcgIter]
  | succ j ih => rw [Nat.succ_add, lcgIter, lcgIter, ih]

end Sys2Proof.Machine
end

