-- ==== Sys2Proof/Laws/State.lean ====
section
/-! SUPPORT. One lemma per field per named update of State, true by rfl, so that no proof unfolds a record update. -/

namespace Sys2Proof.Machine.State

variable (s : State)

/-! ### setState -/

@[simp] theorem setState_state (v : Word) : (s.setState v).state = v := rfl
@[simp] theorem setState_delta (v : Word) : (s.setState v).delta = s.delta := rfl
@[simp] theorem setState_accMult (v : Word) : (s.setState v).accMult = s.accMult := rfl
@[simp] theorem setState_accInc (v : Word) : (s.setState v).accInc = s.accInc := rfl
@[simp] theorem setState_curMult (v : Word) : (s.setState v).curMult = s.curMult := rfl
@[simp] theorem setState_curInc (v : Word) : (s.setState v).curInc = s.curInc := rfl
@[simp] theorem setState_result (v : Word) : (s.setState v).result = s.result := rfl
@[simp] theorem setState_phase (v : Word) : (s.setState v).phase = s.phase := rfl
@[simp] theorem setState_ports (v : Word) : (s.setState v).ports = s.ports := rfl
@[simp] theorem setState_moves (v : Word) : (s.setState v).moves = s.moves := rfl
@[simp] theorem setState_taken (v : Word) : (s.setState v).taken = s.taken := rfl
@[simp] theorem setState_draws (v : Word) : (s.setState v).draws = s.draws := rfl

/-! ### setDelta -/

@[simp] theorem setDelta_state (v : Word) : (s.setDelta v).state = s.state := rfl
@[simp] theorem setDelta_delta (v : Word) : (s.setDelta v).delta = v := rfl
@[simp] theorem setDelta_accMult (v : Word) : (s.setDelta v).accMult = s.accMult := rfl
@[simp] theorem setDelta_accInc (v : Word) : (s.setDelta v).accInc = s.accInc := rfl
@[simp] theorem setDelta_curMult (v : Word) : (s.setDelta v).curMult = s.curMult := rfl
@[simp] theorem setDelta_curInc (v : Word) : (s.setDelta v).curInc = s.curInc := rfl
@[simp] theorem setDelta_result (v : Word) : (s.setDelta v).result = s.result := rfl
@[simp] theorem setDelta_phase (v : Word) : (s.setDelta v).phase = s.phase := rfl
@[simp] theorem setDelta_ports (v : Word) : (s.setDelta v).ports = s.ports := rfl
@[simp] theorem setDelta_moves (v : Word) : (s.setDelta v).moves = s.moves := rfl
@[simp] theorem setDelta_taken (v : Word) : (s.setDelta v).taken = s.taken := rfl
@[simp] theorem setDelta_draws (v : Word) : (s.setDelta v).draws = s.draws := rfl

/-! ### setAcc -/

@[simp] theorem setAcc_state (p : Affine) : (s.setAcc p).state = s.state := rfl
@[simp] theorem setAcc_delta (p : Affine) : (s.setAcc p).delta = s.delta := rfl
@[simp] theorem setAcc_accMult (p : Affine) : (s.setAcc p).accMult = p.mult := rfl
@[simp] theorem setAcc_accInc (p : Affine) : (s.setAcc p).accInc = p.inc := rfl
@[simp] theorem setAcc_curMult (p : Affine) : (s.setAcc p).curMult = s.curMult := rfl
@[simp] theorem setAcc_curInc (p : Affine) : (s.setAcc p).curInc = s.curInc := rfl
@[simp] theorem setAcc_result (p : Affine) : (s.setAcc p).result = s.result := rfl
@[simp] theorem setAcc_phase (p : Affine) : (s.setAcc p).phase = s.phase := rfl
@[simp] theorem setAcc_ports (p : Affine) : (s.setAcc p).ports = s.ports := rfl
@[simp] theorem setAcc_moves (p : Affine) : (s.setAcc p).moves = s.moves := rfl
@[simp] theorem setAcc_taken (p : Affine) : (s.setAcc p).taken = s.taken := rfl
@[simp] theorem setAcc_draws (p : Affine) : (s.setAcc p).draws = s.draws := rfl

/-! ### setCur -/

@[simp] theorem setCur_state (p : Affine) : (s.setCur p).state = s.state := rfl
@[simp] theorem setCur_delta (p : Affine) : (s.setCur p).delta = s.delta := rfl
@[simp] theorem setCur_accMult (p : Affine) : (s.setCur p).accMult = s.accMult := rfl
@[simp] theorem setCur_accInc (p : Affine) : (s.setCur p).accInc = s.accInc := rfl
@[simp] theorem setCur_curMult (p : Affine) : (s.setCur p).curMult = p.mult := rfl
@[simp] theorem setCur_curInc (p : Affine) : (s.setCur p).curInc = p.inc := rfl
@[simp] theorem setCur_result (p : Affine) : (s.setCur p).result = s.result := rfl
@[simp] theorem setCur_phase (p : Affine) : (s.setCur p).phase = s.phase := rfl
@[simp] theorem setCur_ports (p : Affine) : (s.setCur p).ports = s.ports := rfl
@[simp] theorem setCur_moves (p : Affine) : (s.setCur p).moves = s.moves := rfl
@[simp] theorem setCur_taken (p : Affine) : (s.setCur p).taken = s.taken := rfl
@[simp] theorem setCur_draws (p : Affine) : (s.setCur p).draws = s.draws := rfl

/-! ### setResult -/

@[simp] theorem setResult_state (v : Word) : (s.setResult v).state = s.state := rfl
@[simp] theorem setResult_delta (v : Word) : (s.setResult v).delta = s.delta := rfl
@[simp] theorem setResult_accMult (v : Word) : (s.setResult v).accMult = s.accMult := rfl
@[simp] theorem setResult_accInc (v : Word) : (s.setResult v).accInc = s.accInc := rfl
@[simp] theorem setResult_curMult (v : Word) : (s.setResult v).curMult = s.curMult := rfl
@[simp] theorem setResult_curInc (v : Word) : (s.setResult v).curInc = s.curInc := rfl
@[simp] theorem setResult_result (v : Word) : (s.setResult v).result = v := rfl
@[simp] theorem setResult_phase (v : Word) : (s.setResult v).phase = s.phase := rfl
@[simp] theorem setResult_ports (v : Word) : (s.setResult v).ports = s.ports := rfl
@[simp] theorem setResult_moves (v : Word) : (s.setResult v).moves = s.moves := rfl
@[simp] theorem setResult_taken (v : Word) : (s.setResult v).taken = s.taken := rfl
@[simp] theorem setResult_draws (v : Word) : (s.setResult v).draws = s.draws := rfl

/-! ### setPhase -/

@[simp] theorem setPhase_state (p : Phase) : (s.setPhase p).state = s.state := rfl
@[simp] theorem setPhase_delta (p : Phase) : (s.setPhase p).delta = s.delta := rfl
@[simp] theorem setPhase_accMult (p : Phase) : (s.setPhase p).accMult = s.accMult := rfl
@[simp] theorem setPhase_accInc (p : Phase) : (s.setPhase p).accInc = s.accInc := rfl
@[simp] theorem setPhase_curMult (p : Phase) : (s.setPhase p).curMult = s.curMult := rfl
@[simp] theorem setPhase_curInc (p : Phase) : (s.setPhase p).curInc = s.curInc := rfl
@[simp] theorem setPhase_result (p : Phase) : (s.setPhase p).result = s.result := rfl
@[simp] theorem setPhase_phase (p : Phase) : (s.setPhase p).phase = p := rfl
@[simp] theorem setPhase_ports (p : Phase) : (s.setPhase p).ports = s.ports := rfl
@[simp] theorem setPhase_moves (p : Phase) : (s.setPhase p).moves = s.moves := rfl
@[simp] theorem setPhase_taken (p : Phase) : (s.setPhase p).taken = s.taken := rfl
@[simp] theorem setPhase_draws (p : Phase) : (s.setPhase p).draws = s.draws := rfl

/-! ### drive -/

@[simp] theorem drive_state (p : Inputs) : (s.drive p).state = s.state := rfl
@[simp] theorem drive_delta (p : Inputs) : (s.drive p).delta = s.delta := rfl
@[simp] theorem drive_accMult (p : Inputs) : (s.drive p).accMult = s.accMult := rfl
@[simp] theorem drive_accInc (p : Inputs) : (s.drive p).accInc = s.accInc := rfl
@[simp] theorem drive_curMult (p : Inputs) : (s.drive p).curMult = s.curMult := rfl
@[simp] theorem drive_curInc (p : Inputs) : (s.drive p).curInc = s.curInc := rfl
@[simp] theorem drive_result (p : Inputs) : (s.drive p).result = s.result := rfl
@[simp] theorem drive_phase (p : Inputs) : (s.drive p).phase = s.phase := rfl
@[simp] theorem drive_ports (p : Inputs) : (s.drive p).ports = p := rfl
@[simp] theorem drive_moves (p : Inputs) : (s.drive p).moves = s.moves := rfl
@[simp] theorem drive_taken (p : Inputs) : (s.drive p).taken = s.taken := rfl
@[simp] theorem drive_draws (p : Inputs) : (s.drive p).draws = s.draws := rfl

/-! ### take -/

@[simp] theorem take_state (v : Word) : (s.take v).state = s.state := rfl
@[simp] theorem take_delta (v : Word) : (s.take v).delta = s.delta := rfl
@[simp] theorem take_accMult (v : Word) : (s.take v).accMult = s.accMult := rfl
@[simp] theorem take_accInc (v : Word) : (s.take v).accInc = s.accInc := rfl
@[simp] theorem take_curMult (v : Word) : (s.take v).curMult = s.curMult := rfl
@[simp] theorem take_curInc (v : Word) : (s.take v).curInc = s.curInc := rfl
@[simp] theorem take_result (v : Word) : (s.take v).result = s.result := rfl
@[simp] theorem take_phase (v : Word) : (s.take v).phase = s.phase := rfl
@[simp] theorem take_ports (v : Word) : (s.take v).ports = s.ports := rfl
@[simp] theorem take_moves (v : Word) : (s.take v).moves = s.moves := rfl
@[simp] theorem take_taken (v : Word) : (s.take v).taken = s.taken ++ [v] := rfl
@[simp] theorem take_draws (v : Word) : (s.take v).draws = s.draws := rfl

/-! ### moved -/

@[simp] theorem moved_state (r : List HostMove) : (s.moved r).state = s.state := rfl
@[simp] theorem moved_delta (r : List HostMove) : (s.moved r).delta = s.delta := rfl
@[simp] theorem moved_accMult (r : List HostMove) : (s.moved r).accMult = s.accMult := rfl
@[simp] theorem moved_accInc (r : List HostMove) : (s.moved r).accInc = s.accInc := rfl
@[simp] theorem moved_curMult (r : List HostMove) : (s.moved r).curMult = s.curMult := rfl
@[simp] theorem moved_curInc (r : List HostMove) : (s.moved r).curInc = s.curInc := rfl
@[simp] theorem moved_result (r : List HostMove) : (s.moved r).result = s.result := rfl
@[simp] theorem moved_phase (r : List HostMove) : (s.moved r).phase = s.phase := rfl
@[simp] theorem moved_ports (r : List HostMove) : (s.moved r).ports = s.ports := rfl
@[simp] theorem moved_moves (r : List HostMove) : (s.moved r).moves = r := rfl
@[simp] theorem moved_taken (r : List HostMove) : (s.moved r).taken = s.taken := rfl
@[simp] theorem moved_draws (r : List HostMove) : (s.moved r).draws = s.draws + 1 := rfl

/-! ### The two affine pairs -/

@[simp] theorem acc_mult : s.acc.mult = s.accMult := rfl
@[simp] theorem acc_inc : s.acc.inc = s.accInc := rfl
@[simp] theorem cur_mult : s.cur.mult = s.curMult := rfl
@[simp] theorem cur_inc : s.cur.inc = s.curInc := rfl

/-! ### The state after reset: what the spec gives (R35) -/

@[simp] theorem reset_phase : State.reset.phase = .idle := rfl

end Sys2Proof.Machine.State
end

