-- ==== Sys2Proof/Laws/Ops.lean ====
section
/-! SUPPORT. What each shared sequence of register writes does, field by field, said once: every field it writes and, by the
record it equals, every field it leaves. -/

namespace Sys2Proof.Machine

theorem acceptWrites_eq (s : State) : acceptWrites s =
    { s with state := s.ports.reqState, delta := s.ports.reqDelta, accMult := 1, accInc := 0,
             curMult := s.ports.reqMult, curInc := s.ports.reqInc, phase := .run } := rfl

theorem squareShiftWrites_eq (s : State) : squareShiftWrites s =
    { s with curMult := s.curMult * s.curMult, curInc := (s.curMult + 1) * s.curInc, delta := shift s.delta } := by
  simp [squareShiftWrites, square_eq, State.setCur, State.setDelta, State.cur]

theorem composeSquareShiftWrites_eq (s : State) : composeSquareShiftWrites s =
    { s with accMult := s.accMult * s.curMult, accInc := s.accInc * s.curMult + s.curInc,
             curMult := s.curMult * s.curMult, curInc := (s.curMult + 1) * s.curInc, delta := shift s.delta } := by
  simp [composeSquareShiftWrites, square_eq, compose_eq, State.setCur, State.setAcc, State.setDelta, State.cur, State.acc]

theorem finishWrites_eq (s : State) : finishWrites s =
    { s with result := s.accMult * s.state + s.accInc, phase := .done } := by
  simp [finishWrites, applyPair_eq, State.setResult, State.setPhase, State.acc]

theorem deliverWrites_eq (s : State) : deliverWrites s =
    { s with taken := s.taken ++ [s.result], phase := .idle } := rfl

/-! ### An iteration step, whichever it is -/

@[simp] theorem iterationWrites_state (s : State) : (iterationWrites s).state = s.state := by
  unfold iterationWrites; split <;> rfl

@[simp] theorem iterationWrites_phase (s : State) : (iterationWrites s).phase = s.phase := by
  unfold iterationWrites; split <;> rfl

@[simp] theorem iterationWrites_result (s : State) : (iterationWrites s).result = s.result := by
  unfold iterationWrites; split <;> rfl

@[simp] theorem iterationWrites_ports (s : State) : (iterationWrites s).ports = s.ports := by
  unfold iterationWrites; split <;> rfl

@[simp] theorem iterationWrites_moves (s : State) : (iterationWrites s).moves = s.moves := by
  unfold iterationWrites; split <;> rfl

@[simp] theorem iterationWrites_taken (s : State) : (iterationWrites s).taken = s.taken := by
  unfold iterationWrites; split <;> rfl

@[simp] theorem iterationWrites_draws (s : State) : (iterationWrites s).draws = s.draws := by
  unfold iterationWrites; split <;> rfl

@[simp] theorem iterationWrites_delta (s : State) : (iterationWrites s).delta = shift s.delta := by
  unfold iterationWrites; split <;> rfl

theorem iterationWrites_curMult (s : State) : (iterationWrites s).curMult = s.curMult * s.curMult := by
  unfold iterationWrites; split <;> simp [composeSquareShiftWrites_eq, squareShiftWrites_eq]

theorem iterationWrites_curInc (s : State) : (iterationWrites s).curInc = (s.curMult + 1) * s.curInc := by
  unfold iterationWrites; split <;> simp [composeSquareShiftWrites_eq, squareShiftWrites_eq]

/-! ### The loop leaves all but the working registers -/

theorem loopWrites_frame (n : Nat) (s : State) :
    (loopWrites n s).state = s.state ∧ (loopWrites n s).phase = s.phase ∧ (loopWrites n s).result = s.result ∧
    (loopWrites n s).ports = s.ports ∧ (loopWrites n s).moves = s.moves ∧ (loopWrites n s).taken = s.taken ∧
    (loopWrites n s).draws = s.draws := by
  induction n generalizing s with
  | zero => simp [loopWrites]
  | succ n ih =>
    unfold loopWrites
    split
    · simp
    · simpa using ih (iterationWrites s)

/-- After at least as many steps as DELTA has bits the loop is exhausted (R130). -/
theorem loopWrites_delta (n : Nat) (s : State) (h : s.delta.toNat < 2 ^ n) : (loopWrites n s).delta.toNat = 0 := by
  induction n generalizing s with
  | zero => simpa [loopWrites] using h
  | succ n ih =>
    unfold loopWrites
    split
    · next hz => exact (dz_eq_true _).1 hz
    · refine ih _ ?_
      rw [iterationWrites_delta, shift_toNat]
      rw [pow_succ] at h
      omega

/-! ### The selection vector and its decoding (R74, R75) -/

/-- The step a state's registers and ports select, by the conditions of Table 30-3. -/
def selected (s : State) : Instr :=
  if s.ports.rst then .reset else
  match s.phase with
  | .idle => if s.ports.reqValid then .accept else .wait
  | .run => if dz s.delta then .finish else if b0 s.delta then .iterCompose else .iterSkip
  | .done => if s.ports.rspReady then .deliver else .hold

/-- The vector as a function of the values it is formed from. -/
def vectorOf (t : Bool) (p : Phase) (v z b r : Bool) : SelWord :=
  BitVec.ofBool t ++ p.code ++ BitVec.ofBool v ++ BitVec.ofBool z ++ BitVec.ofBool b ++ BitVec.ofBool r

/-- The row selected by those values. -/
def rowOf (t : Bool) (p : Phase) (v z b r : Bool) : Instr :=
  if t then .reset else
  match p with
  | .idle => if v then .accept else .wait
  | .run => if z then .finish else if b then .iterCompose else .iterSkip
  | .done => if r then .deliver else .hold

theorem decodeSel_vectorOf (t : Bool) (p : Phase) (v z b r : Bool) :
    decodeSel (vectorOf t p v z b r) = .ok (rowOf t p v z b r) := by
  cases t <;> cases p <;> cases v <;> cases z <;> cases b <;> cases r <;> rfl

theorem decode_selectionVector (s : State) : decode (.sel (selectionVector s)) = .ok (selected s) :=
  decodeSel_vectorOf s.ports.rst s.phase s.ports.reqValid (dz s.delta) (b0 s.delta) s.ports.rspReady

/-- Everything a tick can select, with the condition of its row (Table 30-3, Table 41-1). -/
theorem selected_cases (s : State) :
    (s.ports.rst = true ∧ selected s = .reset) ∨
    (s.ports.rst = false ∧ s.phase = .idle ∧ s.ports.reqValid = false ∧ selected s = .wait) ∨
    (s.ports.rst = false ∧ s.phase = .idle ∧ s.ports.reqValid = true ∧ selected s = .accept) ∨
    (s.ports.rst = false ∧ s.phase = .run ∧ s.delta.toNat ≠ 0 ∧ s.delta.toNat % 2 = 0 ∧ selected s = .iterSkip) ∨
    (s.ports.rst = false ∧ s.phase = .run ∧ s.delta.toNat ≠ 0 ∧ s.delta.toNat % 2 = 1 ∧ selected s = .iterCompose) ∨
    (s.ports.rst = false ∧ s.phase = .run ∧ s.delta.toNat = 0 ∧ selected s = .finish) ∨
    (s.ports.rst = false ∧ s.phase = .done ∧ s.ports.rspReady = false ∧ selected s = .hold) ∨
    (s.ports.rst = false ∧ s.phase = .done ∧ s.ports.rspReady = true ∧ selected s = .deliver) := by
  have hz := dz_eq_true s.delta
  have hz' := dz_eq_false s.delta
  have hb := b0_eq_true s.delta
  have hb' := b0_eq_false s.delta
  unfold selected
  cases s.ports.rst <;> cases s.phase <;> cases s.ports.reqValid <;> cases s.ports.rspReady <;>
    cases h1 : dz s.delta <;> cases h2 : b0 s.delta <;> simp_all

end Sys2Proof.Machine
end

