-- ==== Sys2Proof/Laws/Contract.lean ====
section
/-! SUPPORT. The contract's numbers as ring operations (40_advance.md), and what the loop of phase RUN does to the two pairs. -/

namespace Sys2Proof.Machine

theorem powMod_succ (m : Word) (k : Nat) : powMod m (k + 1) = powMod m k * m :=
  BitVec.eq_of_toNat_eq (by simp [powMod, BitVec.toNat_mul, pow_succ])

theorem powMod_eq_pow (m : Word) (k : Nat) : powMod m k = m ^ k := by
  induction k with
  | zero => rfl
  | succ k ih => rw [powMod_succ, ih, pow_succ]

@[simp] theorem incMod_zero (m c : Word) : incMod m c 0 = 0 := by
  simp [incMod, geomSum]

theorem incMod_succ (m c : Word) (k : Nat) : incMod m c (k + 1) = incMod m c k + c * m ^ k := by
  rw [← powMod_eq_pow]
  exact BitVec.eq_of_toNat_eq
    (by simp [incMod, powMod, geomSum, BitVec.toNat_mul, BitVec.toNat_add, mul_add])

theorem incMod_one (m c : Word) : incMod m c 1 = c := by
  rw [incMod_succ, incMod_zero]; simp

theorem incMod_add (m c : Word) (j k : Nat) : incMod m c (j + k) = incMod m c j * m ^ k + incMod m c k := by
  induction j with
  | zero => simp
  | succ j ih => rw [Nat.succ_add, incMod_succ, incMod_succ, ih, pow_add]; ring

theorem lcgIter_succ (m c : Word) (k : Nat) (x : Word) : lcgIter m c (k + 1) x = lcgStep m c (lcgIter m c k x) := by
  rw [lcgIter_add]; rfl

/-- The pair of a map squared has the increments of the even exponents. -/
theorem incMod_square (m c : Word) (k : Nat) : incMod (m * m) ((m + 1) * c) k = incMod m c (2 * k) := by
  induction k with
  | zero => simp
  | succ k ih =>
    rw [incMod_succ, ih, show 2 * (k + 1) = 2 * k + 1 + 1 by ring, incMod_succ, incMod_succ, ← pow_two, ← pow_mul]
    ring

/-- `bitlen` falls by one when the number is halved (R130). -/
theorem bitlen_of_half (d e : Word) (h : d.toNat ≠ 0) (he : e.toNat = d.toNat / 2) : bitlen d = bitlen e + 1 := by
  unfold bitlen
  rw [if_neg h]
  split
  · next h0 =>
    have : d.toNat = 1 := by omega
    rw [this]; rfl
  · next h0 => rw [he, Nat.log2_def d.toNat, if_pos (by omega)]

end Sys2Proof.Machine
end

