-- ==== Sys2Proof/Laws/PerInstr.lean ====
section
/-! SUPPORT. The per-operation family RoundTrip: decoding an encoded operation gives it back (30_encoding.md R71, R75). -/

namespace Sys2Proof.Laws.RoundTrip

/-- The decoder reads back what the encoder writes. -/
def Statement (i : Instr) : Prop :=
  decode (encode i) = .ok i

/-- The four fields of a request word (R71, Table 30-1). -/
theorem decodeReq_encodeReq (s d m c : Word) : decodeReq (encodeReq s d m c) = .advance s d m c := by
  simp only [decodeReq, encodeReq, Instr.advance.injEq]
  refine ⟨?_, ?_, ?_, ?_⟩ <;> apply BitVec.eq_of_getLsbD_eq <;> intro i hi <;>
    simp only [BitVec.getLsbD_extractLsb', BitVec.getLsbD_append, hi, decide_true, Bool.true_and] <;> grind

theorem advance (state delta mult inc : Word) : Statement (.advance state delta mult inc) :=
  congrArg Except.ok (decodeReq_encodeReq state delta mult inc)

theorem reset : Statement .reset := rfl

theorem wait : Statement .wait := rfl

theorem accept : Statement .accept := rfl

theorem iterSkip : Statement .iterSkip := rfl

theorem iterCompose : Statement .iterCompose := rfl

theorem finish : Statement .finish := rfl

theorem hold : Statement .hold := rfl

theorem deliver : Statement .deliver := rfl

end Sys2Proof.Laws.RoundTrip
end

