-- ==== Sys2Proof/Laws/Script.lean ====
section
/-! SUPPORT. What an argument's value is, and what an assignment does to it (30_encoding.md R79, R80). -/

namespace Sys2Proof.Machine

@[simp] theorem Session.value_lit (h : Session) (v : Word) : h.value (.lit v) = some v := rfl

@[simp] theorem Session.value_complement (h : Session) (k : Arg) :
    h.value (.complement k) = (h.value k).map negMod := rfl

@[simp] theorem Session.assign_value_self (h : Session) (rd : Nat) (v : Word) : (h.assign rd v).value (.var rd) = some v := by
  simp [Session.value, Session.assign]

/-- The value of an argument depends on the variables alone. -/
theorem Session.value_of_vars (h h' : Session) (e : h.vars = h'.vars) (k : Arg) : h.value k = h'.value k := by
  induction k with
  | lit v => rfl
  | var n => simp [Session.value, e]
  | complement k ih => simp [ih]

end Sys2Proof.Machine
end

