-- ==== Sys2Proof/Laws/Step.lean ====
section
/-! SUPPORT. What one step is for each kind of host move, said once (41_control_steps.md R128). -/

namespace Sys2Proof.Machine

theorem step_tick (s : State) (p : Inputs) (rest : List HostMove) (h : s.moves = .tick p :: rest) :
    step s = exec (selected ((s.drive p).moved rest)) ((s.drive p).moved rest) := by
  simp [step, fetch, h, decode_selectionVector]

theorem step_request (s : State) (w : ReqWord) (rest : List HostMove) (h : s.moves = .request w :: rest) :
    step s = exec (decodeReq w) (s.moved rest) := by
  simp [step, fetch, h, decode]

theorem step_unlisted (s : State) (h : s.moves = []) :
    step s = exec (selected ((s.drive (.free s.draws)).moved [])) ((s.drive (.free s.draws)).moved []) := by
  simp [step, fetch, h, decode_selectionVector]

end Sys2Proof.Machine
end

