-- ==== Sys2Proof/Tests/Slice0.lean ====
section
/-! SUPPORT. Tests of the model. Expected values are the spec's: 95_test_vectors.md (section named at each), or the example of the
rule named. Then, for every statement with hypotheses, a state and operands that meet them. -/

namespace Sys2Proof.Tests

open Sys2Proof.Machine

/-- A state with the given phase and data registers, the quiet host (the registers' order is Table 10-1's). -/
def unit (p : Phase) (st d am ai cm ci r : Word) : State :=
  { State.reset with state := st, delta := d, accMult := am, accInc := ai, curMult := cm, curInc := ci, result := r, phase := p }

/-- Quiet ports but for the three control inputs. -/
def ctl (rst valid ready : Bool) : Inputs :=
  { Inputs.quiet with rst := rst, reqValid := valid, rspReady := ready }

/-- A request on the ports, the host not ready. -/
def req (st d m c : Word) : Inputs :=
  { Inputs.presenting st d m c with rspReady := false }

/-- The next state of an outcome, the given state for any other. -/
def after (s : State) : Host.Outcome State Fault Refusal → State
  | .next t => t
  | .fault _ => s
  | .refused _ => s

/-- The state after an operation. -/
def run (i : Instr) (s : State) : State := after s (exec i s)

/-- The state after one tick with the given inputs. -/
def tick (p : Inputs) (s : State) : State := after s (stepWith (.tick p) s)

/-! ### Well-formedness: an ill-formed word for each check -/

/-- R77: PHASE = 0b11 without reset is refused by check 1, and by the decoder. -/
theorem test_reserved_ill_formed : (Encoded.sel 0b0110000).wellFormed = false ∧ (Encoded.sel 0b0111111).wellFormed = false := by
  decide

theorem test_reserved_not_decoded : decode (.sel 0b0110000) = .error (.reservedSelection 0b0110000) := rfl

/-- R76: `dz = 1` with `b0 = 1` fails check 2 and still decodes as FINISH (section 2.2). -/
theorem test_unformable : (Encoded.sel 0b0010110).formable = false ∧ (Encoded.sel 0b1111111).formable = false := by decide

theorem test_unformable_decodes : decode (.sel 0b0010110) = .ok .finish := rfl

/-! ### Decoding (section 2.2; program 1, line 2 and program 4, line 2 of section 3) -/

theorem test_decode_reset : decode (.sel 0b1111111) = .ok .reset := rfl
theorem test_decode_wait : decode (.sel 0b0000000) = .ok .wait := rfl
theorem test_decode_accept : decode (.sel 0b0001111) = .ok .accept := rfl
theorem test_decode_iterSkip : decode (.sel 0b0010000) = .ok .iterSkip := rfl
theorem test_decode_iterCompose : decode (.sel 0b0010010) = .ok .iterCompose := rfl
theorem test_decode_finish : decode (.sel 0b0010100) = .ok .finish := rfl
theorem test_decode_hold : decode (.sel 0b0100000) = .ok .hold := rfl
theorem test_decode_deliver : decode (.sel 0b0100001) = .ok .deliver := rfl

theorem test_decode_request :
    decode (.req 0x0000000000000010_5851F42D4C957F2D_0000000000000001_B999C4E27EEB7BF1) =
      .ok (.advance 0xB999C4E27EEB7BF1 1 0x5851F42D4C957F2D 0x10) := by decide

theorem test_encode_request :
    encode (.advance 7 6 3 1) = .req 0x0000000000000001_0000000000000003_0000000000000006_0000000000000007 := by decide

theorem test_table_words : decodeTableWord 7 0x12 = some .iterCompose ∧ decodeTableWord 8 0x21 = some .deliver ∧
    decodeTableWord 7 0x30 = none ∧ decodeTableWord 256 0 = some (.advance 0 0 0 0) := by decide

/-! ### The data path (section 2.1) -/

theorem test_mul64 : mul64 0x5851F42D4C957F2D 0x5851F42D4C957F2D = 0x685F98A2018FADE9 := by decide
theorem test_add64 : add64 0xFFFFFFFFFFFFFFF0 0x20 = 0x10 := by decide
theorem test_mac64 : mac64 5 0x5851F42D4C957F2D 0x10 = 0xB999C4E27EEB7BF1 := by decide
theorem test_inc64 : inc64 0xFFFFFFFFFFFFFFFF = 0 := by decide
theorem test_lsr1 : lsr1 0x8000000000000000 = 0x4000000000000000 := by decide
theorem test_dz_b0 : dz 0x8000000000000000 = false ∧ b0 0x8000000000000000 = false ∧ dz 0 = true ∧ b0 1 = true := by decide
theorem test_compose : compose ⟨9, 4⟩ ⟨81, 40⟩ = ⟨729, 364⟩ := by decide
theorem test_square : square ⟨0x5851F42D4C957F2D, 0x10⟩ = ⟨0x685F98A2018FADE9, 0x851F42D4C957F2E0⟩ := by decide
theorem test_apply : applyPair ⟨0x696D29DA565AD7FD, 0x7033129D2BD141D0⟩ 5 = 0x7F54E3E0DB9779C1 := by decide

/-! ### Control steps (the rules' examples; trace B and E of section 2.4) -/

/-- R120's example: RUN, DELTA = 2, `rst = 1` gives IDLE, DELTA still 2. -/
theorem test_reset : (tick (ctl true false true) (unit .run 0 2 0 0 0 0 0)).phase = .idle ∧
    (tick (ctl true false true) (unit .run 0 2 0 0 0 0 0)).delta = 2 := by decide

/-- R121's example. -/
theorem test_wait : (tick (ctl false false true) (unit .idle 0 0 0 0 0 0 0)).reqReady = true := by decide

/-- R122's example. -/
theorem test_accept : (let t := tick (req 5 5 0x5851F42D4C957F2D 0x10) (unit .idle 9 9 9 9 9 9 9)
    [t.state, t.delta, t.accMult, t.accInc, t.curMult, t.curInc, t.result]) =
      [5, 5, 1, 0, 0x5851F42D4C957F2D, 0x10, 9] := by decide

/-- R123's example. -/
theorem test_iterSkip : (let t := tick (ctl false true true) (unit .run 7 6 1 0 3 1 0)
    [t.delta, t.accMult, t.accInc, t.curMult, t.curInc]) = [3, 1, 0, 9, 4] := by decide

/-- Trace E: the pre-adder wraps. -/
theorem test_iterSkip_wraps : (let t := run .iterSkip (unit .run 4 2 1 0 0xFFFFFFFFFFFFFFFF 9 0)
    [t.curMult, t.curInc]) = [1, 0] := by decide

/-- R124's example. -/
theorem test_iterCompose : (let t := tick (ctl false false false) (unit .run 7 3 1 0 9 4 0)
    [t.delta, t.accMult, t.accInc, t.curMult, t.curInc]) = [1, 9, 4, 81, 40] := by decide

/-- Trace B, the second ITER_COMPOSE. -/
theorem test_iterCompose_again : (let t := run .iterCompose (unit .run 7 1 9 4 81 40 0)
    [t.delta, t.accMult, t.accInc, t.curMult, t.curInc]) = [0, 729, 364, 6561, 3280] := by decide

/-- R125's example. -/
theorem test_finish : (let t := tick (ctl false true true) (unit .run 7 0 729 364 6561 3280 0); (t.result, t.phase)) =
    (5467, Phase.done) := by decide

/-- R126's example. -/
theorem test_hold : (let t := tick (ctl false true false) (unit .done 0 0 0 0 0 0 0x7F54E3E0DB9779C1)
    (t.rspResult 0, t.rspValid, t.reqReady)) = (0x7F54E3E0DB9779C1, true, false) := by decide

/-- R127's example. -/
theorem test_deliver : (let t := tick (ctl false true true) (unit .done 0 0 0 0 0 0 5467); (t.taken, t.phase)) =
    ([5467], Phase.idle) := by decide

/-- Trace I, tick 4: no delivery under reset. -/
theorem test_no_handshake_under_reset : (tick (ctl true false true) (unit .done 0 0 0 0 0 0 9)).taken = [] := by decide

/-! ### ADVANCE (section 2.4 trace A and F, section 2.5 row 25) -/

theorem test_advance : (let t := run (.advance 5 5 0x5851F42D4C957F2D 0x10) State.reset
    [t.result, t.accMult, t.accInc, t.curMult, t.curInc]) =
      [0x7F54E3E0DB9779C1, 0x696D29DA565AD7FD, 0x7033129D2BD141D0, 0xB59DDA5F38413D21, 0xA8B7F78DA6EF4D80] := by
  decide +kernel

theorem test_advance_back : (let t := run (.advance 5 0xFFFFFFFFFFFFFFFF 0x5851F42D4C957F2D 0x10) State.reset
    [t.result, t.accMult, t.accInc, t.curMult, t.curInc]) =
      [0xB978B530D33440E9, 0xC097EF87329E28A5, 0xF681078CD61D75B0, 1, 0] := by decide +kernel

theorem test_advance_same_fields :
    returned 0x5851F42D4C957F2D 0x5851F42D4C957F2D 0x5851F42D4C957F2D 0x5851F42D4C957F2D State.reset =
      some 0x31DFD1BE88D5ACAA := by decide +kernel

/-- Trace A's request placed as the next word: the step after reset runs it. -/
theorem test_placed_request : (after State.reset (step (State.reset.withFetchWord 256
    0x0000000000000010_5851F42D4C957F2D_0000000000000005_0000000000000005))).taken = [0x7F54E3E0DB9779C1] := by decide +kernel

/-- FINISH placed as the next word: the step after reset runs it. -/
theorem test_placed_finish : (after State.reset (step (State.reset.withFetchWord 8 0x14))).phase = .done := by decide

/-- Program 3, lines 2 and 3 of section 3: `step` and `back` with an even multiplier. -/
theorem test_script_even : ((Session.mk [] State.reset).script
    [Line.step 0 (.lit 0x8000000000000001) (.lit 2) (.lit 0), Line.back 1 (.var 0) (.lit 2) (.lit 0)]).map Session.vars =
      some [(1, 0), (0, 2)] := by decide +kernel

/-- R80, Table 30-4: `jumpback` by a host variable that holds 400 has the field `2^64 - 400`. -/
theorem test_jumpback_variable : (Session.mk [(1, 400)] State.reset).value (.complement (.var 1)) = some 0xFFFFFFFFFFFFFE70 := by
  decide

/-! ### Witnesses: for each statement with hypotheses, a state and operands that meet them -/

theorem test_witness_step_tick : ∃ (s : State) (p : Inputs) (rest : List HostMove), s.moves = HostMove.tick p :: rest :=
  ⟨{ State.reset with moves := [.tick (req 5 5 3 1)] }, _, _, rfl⟩

theorem test_witness_step_request : ∃ (s : State) (w : ReqWord) (rest : List HostMove), s.moves = HostMove.request w :: rest :=
  ⟨{ State.reset with moves := [.request 7] }, _, _, rfl⟩

theorem test_witness_step_unlisted : State.reset.moves = [] := rfl

theorem test_witness_step_decodes :
    decode (fetch { State.reset with moves := [.tick (req 5 5 3 1)] }).1 = .ok .accept := rfl

theorem test_witness_rows_accept : ∃ r ∈ selTable, r.accepts 0x49 = true ∧ r.step = .reset := by decide

theorem test_witness_wellFormed : (Instr.advance 1 2 3 4).wellFormed = true ∧ Instr.hold.wellFormed = true := by decide

theorem test_witness_decoded_words : decode (.sel 0x7F) = .ok .reset ∧ decode (.req 0) = .ok (.advance 0 0 0 0) := by
  constructor
  · rfl
  · decide

theorem test_witness_even_step_count : (6 : Word) ≠ 0 ∧ (6 : Word).getLsbD 0 = false := by decide

theorem test_witness_outputs : (unit .done 0 0 0 0 0 0 5).phase = .done ∧ State.reset.phase ≠ .done := by decide

theorem test_witness_odd : isOdd 0x5851F42D4C957F2D = true ∧ isOdd 2 = false := by decide

theorem test_witness_unit_inverse : mul64 0x5851F42D4C957F2D 0xC097EF87329E28A5 = 1 := by decide

theorem test_witness_realise : ∃ (s : State) (p : Inputs) (working holding : List Inputs) (q : Inputs),
    s.phase = .idle ∧ p.rst = false ∧ p.reqValid = true ∧ NoReset working ∧ working.length = bitlen p.reqDelta + 1 ∧
    (∀ h ∈ holding, h.rst = false ∧ h.rspReady = false) ∧ q.rst = false ∧ q.rspReady = true := by
  refine ⟨State.reset, req 7 2 3 1, [ctl false true true, ctl false false false, ctl false false true],
    [ctl false true false], ctl false true true, rfl, rfl, rfl, ?_, by decide, by decide, rfl, rfl⟩
  unfold NoReset
  decide

theorem test_witness_loopInvariant : LoopInvariant 7 6 3 1 1 (unit .run 7 3 1 0 9 4 0) ∧
    (unit .run 7 3 1 0 9 4 0).delta ≠ 0 ∧ (ctl false true true).rst = false :=
  ⟨⟨rfl, by decide, rfl, by decide, by decide, by decide, by decide, by decide⟩, by decide, rfl⟩

theorem test_witness_no_wrap : isOdd 2 = false ∧ (5 : Word).toNat + (9 : Word).toNat < 2 ^ 64 := by decide

theorem test_witness_special : (7 : Word) ≠ 0 ∧ (2 : Word).getLsbD 0 = false ∧ (1 : Word).getLsbD 0 = true ∧
    isOdd 2 = false ∧ 64 ≤ (64 : Word).toNat := by decide

theorem test_witness_iterations : (unit .run 7 5 1 0 3 1 0).phase = .run ∧
    NoReset [ctl false true true, ctl false false true, ctl false true false, ctl false false false] ∧
    ([ctl false true true, ctl false false true, ctl false true false, ctl false false false] : List Inputs).length =
      bitlen (unit .run 7 5 1 0 3 1 0).delta + 1 := by
  refine ⟨rfl, ?_, by decide⟩
  unfold NoReset
  decide

theorem test_witness_large_count : 2 ^ 63 ≤ (0x8000000000000000 : Word).toNat := by decide

theorem test_witness_operationInvariant : OperationInvariant { unit .done 7 0 729 364 6561 3280 5467 with moves := [.tick (ctl false false true)] } ∧
    ∃ t, step { unit .done 7 0 729 364 6561 3280 5467 with moves := [.tick (ctl false false true)] } = .next t := by
  refine ⟨⟨fun _ => ?_, fun _ => rfl, fun _ => by decide⟩, _, rfl⟩
  unfold MapsCommute
  decide

theorem test_witness_reset_tick : (ctl true true true).rst = true ∧ NoReset [ctl false false true] ∧
    ∀ q ∈ [ctl false false true], q.reqValid = false := by
  refine ⟨rfl, ?_, by decide⟩
  unfold NoReset
  decide

theorem test_witness_hold : (unit .done 0 0 0 0 0 0 67).phase = .done ∧
    ∀ p ∈ [ctl false false false, ctl false true false], p.rst = false ∧ p.rspReady = false := by decide

theorem test_witness_named_inputs : (State.reset.phase = .idle ∧ (req 7 2 3 1).reqWord = (Inputs.presenting 7 2 3 1).reqWord ∧
    (req 7 2 3 1).rst = false ∧ (req 7 2 3 1).reqValid = true) ∧
    ((unit .done 0 0 0 0 0 0 1).phase = .done ∧ (ctl false true true).rspReady = (ctl false false true).rspReady) := by decide

theorem test_witness_history : SameToHost (unit .idle 1 2 3 4 5 6 7) State.reset ∧
    SameToHost (unit .run 7 6 1 0 3 1 8) (unit .run 7 6 1 0 3 1 0) ∧
    SameToHost (unit .done 7 0 9 9 9 9 5) (unit .done 1 2 3 4 6 8 5) :=
  ⟨⟨rfl, rfl, rfl, rfl, rfl, by decide, by decide⟩, ⟨rfl, rfl, rfl, rfl, rfl, by decide, by decide⟩,
    ⟨rfl, rfl, rfl, rfl, rfl, by decide, by decide⟩⟩

theorem test_witness_responses : State.reset.phase = .idle ∧ NoReset [req 4 0 1 1, ctl false false false] := by
  refine ⟨rfl, ?_⟩
  unfold NoReset
  decide

/-- Both clauses of ResponsesFollowRequests: a run that ends in IDLE, and one that ends with a response due. -/
theorem test_witness_responses_ends :
    (tick (ctl false false true) (tick (ctl false false true) (tick (req 4 0 1 1) State.reset))).phase = .idle ∧
    (tick (ctl false false true) (tick (req 4 0 1 1) State.reset)).phase ≠ .idle := by decide

theorem test_witness_writers : exec .finish State.reset = .next (run .finish State.reset) ∧
    ∀ st d m c, Instr.finish ≠ .advance st d m c :=
  ⟨rfl, fun _ _ _ _ h => by cases h⟩

/-- PseudoOperationsStepBothWays: a count in a host variable other than the one assigned, and a literal count. -/
theorem test_witness_pseudo_operations : isOdd 3 = true ∧ (Session.mk [(1, 400)] State.reset).value (.var 1) = some 400 ∧
    (∀ w, ((Session.mk [(1, 400)] State.reset).assign 0 w).value (.var 1) = some 400) ∧
    (∀ w, ((Session.mk [] State.reset).assign 0 w).value (.lit 6) = some 6) :=
  ⟨rfl, rfl, fun _ => rfl, fun _ => rfl⟩

theorem test_witness_placed : decode (.sel 0x12) = .ok .iterCompose ∧ (Encoded.sel 0x12).formable = true :=
  ⟨rfl, rfl⟩

end Sys2Proof.Tests
end

section
/-! PROOFS. The outputs, the writers of each register, and what of an earlier operation a host can see (10_state.md R20 to R38). -/

namespace Sys2Proof.Machine

variable {s t : State}

/-! ### The outputs as functions of the registers (R32, R33) -/

theorem reqReady_iff_idle : s.reqReady = true ↔ s.phase = .idle := by
  simp [State.reqReady]

theorem rspValid_iff_done : s.rspValid = true ↔ s.phase = .done := by
  simp [State.rspValid]

theorem no_handshake_offered_iff_run : (s.reqReady = false ∧ s.rspValid = false) ↔ s.phase = .run := by
  cases h : s.phase <;> simp [State.reqReady, State.rspValid, h]

theorem rspResult_of_done (h : s.phase = .done) (read : Nat) : s.rspResult read = s.result := by
  simp [State.rspResult, h]

theorem rspResult_of_ne_done (h : s.phase ≠ .done) (read : Nat) :
    s.rspResult read = Config.freeRsp s.draws read := by
  cases hp : s.phase with
  | idle => simp [State.rspResult, hp]
  | run => simp [State.rspResult, hp]
  | done => exact absurd hp h

/-- What a host sees of a unit in IDLE: ready, nothing offered, a free value on `rsp_result`. -/
theorem outputs_of_idle (h : s.phase = .idle) :
    s.reqReady = true ∧ s.rspValid = false ∧ ∀ read, s.rspResult read = Config.freeRsp s.draws read := by
  have hne : s.phase ≠ .done := by simp [h]
  exact ⟨reqReady_iff_idle.2 h, Bool.eq_false_iff.2 (mt rspValid_iff_done.1 hne), rspResult_of_ne_done hne⟩

/-- Settles O15, output by output; the ports stand in no output's definition. -/
theorem outputsFollowPhase : Obligations.OutputsFollowPhase := fun _ _ read =>
  ⟨reqReady_iff_idle, rspValid_iff_done, no_handshake_offered_iff_run, fun h => rspResult_of_done h read,
    fun h => rspResult_of_ne_done h read, rfl, rfl, rfl⟩

/-! ### Reset (R35, R120) -/

/-- Settles O16: RESET is the one write `PHASE <- IDLE`. -/
theorem afterResetIdle : Obligations.AfterResetIdle := by
  have resets (s : State) : exec .reset s = .next (s.setPhase .idle) := rfl
  obtain ⟨ready, invalid, -⟩ := outputs_of_idle State.reset_phase
  refine ⟨fun s => ?_, State.reset_phase, ready, invalid⟩
  obtain ⟨ready, invalid, free⟩ := outputs_of_idle (s.setPhase_phase .idle)
  exact ⟨_, resets s, rfl, ready, invalid, free, by simp⟩

/-- In IDLE no operation is in progress, and the operation invariant says nothing. -/
theorem operationInvariant_of_idle (h : s.phase = .idle) : OperationInvariant s where
  commute hne := absurd h hne
  exhausted hd := by simp [h] at hd
  applied hd := by simp [h] at hd

/-- Settles O38: the reset state is in IDLE. -/
theorem resetMeetsOperationInvariant : Obligations.ResetMeetsOperationInvariant :=
  operationInvariant_of_idle State.reset_phase

/-! ### Which step writes which register (Table 10-1) -/

/-- All that a control step can do: the writes of its rule, and no other outcome (R120 to R127). -/
theorem exec_control_cases {i : Instr} (h : exec i s = .next t) (hi : ∀ st d m c, i ≠ .advance st d m c) :
    (i = .reset ∧ t = s.setPhase .idle) ∨
    (i = .wait ∧ t = s) ∨
    (i = .accept ∧ t = acceptWrites s) ∨
    (i = .iterSkip ∧ t = squareShiftWrites s) ∨
    (i = .iterCompose ∧ t = composeSquareShiftWrites s) ∨
    (i = .finish ∧ t = finishWrites s) ∨
    (i = .hold ∧ t = s) ∨
    (i = .deliver ∧ t = deliverWrites s) := by
  cases i with
  | advance st d m c => exact absurd rfl (hi st d m c)
  | _ => cases h; simp

/-- Settles O44: read off the record each control step's writes equal. -/
theorem onlyNamedStepsWrite : Obligations.OnlyNamedStepsWrite := by
  intro i s t h hi
  obtain ⟨rfl, rfl⟩ | ⟨rfl, rfl⟩ | ⟨rfl, rfl⟩ | ⟨rfl, rfl⟩ | ⟨rfl, rfl⟩ | ⟨rfl, rfl⟩ | ⟨rfl, rfl⟩ | ⟨rfl, rfl⟩ :=
    exec_control_cases h hi
  · simp
  · simp
  · simp [acceptWrites_eq]
  · simp [squareShiftWrites_eq]
  · simp [composeSquareShiftWrites_eq]
  · simp [finishWrites_eq]
  · simp
  · simp [deliverWrites_eq]

/-! ### States that are the same to the host stay so (R36, R37, R58)

Each sequence of register writes keeps the relation: it reads only registers on which related states of its phase agree. -/

namespace SameToHost

theorem drive (h : SameToHost s t) (p : Inputs) : SameToHost (s.drive p) (t.drive p) :=
  { h with ports := rfl }

theorem moved (h : SameToHost s t) (rest : List HostMove) : SameToHost (s.moved rest) (t.moved rest) :=
  { h with moves := rfl, draws := congrArg (· + 1) h.draws }

theorem setPhase_idle (h : SameToHost s t) : SameToHost (s.setPhase .idle) (t.setPhase .idle) :=
  { h with phase := rfl, running := by simp, finished := by simp }

/-- ACCEPT overwrites all six working registers from the ports. -/
theorem accepted (h : SameToHost s t) : SameToHost (acceptWrites s) (acceptWrites t) where
  phase := rfl
  ports := h.ports
  moves := h.moves
  taken := h.taken
  draws := h.draws
  running _ := by simp [acceptWrites_eq, h.ports]
  finished := by simp [acceptWrites_eq]

theorem skipped (h : SameToHost s t) (hr : s.phase = .run) :
    SameToHost (squareShiftWrites s) (squareShiftWrites t) := by
  obtain ⟨hst, hd, ham, hai, hcm, hci⟩ := h.running hr
  refine { h with running := fun _ => ?_ }
  simp [squareShiftWrites_eq, hst, hd, ham, hai, hcm, hci]

theorem composed (h : SameToHost s t) (hr : s.phase = .run) :
    SameToHost (composeSquareShiftWrites s) (composeSquareShiftWrites t) := by
  obtain ⟨hst, hd, ham, hai, hcm, hci⟩ := h.running hr
  refine { h with running := fun _ => ?_ }
  simp [composeSquareShiftWrites_eq, hst, hd, ham, hai, hcm, hci]

/-- FINISH forms RESULT from the accumulated map and STATE alone. -/
theorem applied (h : SameToHost s t) (hr : s.phase = .run) : SameToHost (finishWrites s) (finishWrites t) := by
  obtain ⟨hst, -, ham, hai, -, -⟩ := h.running hr
  refine { h with phase := rfl, running := by simp [finishWrites_eq], finished := fun _ => ?_ }
  simp [finishWrites_eq, hst, ham, hai]

theorem delivered (h : SameToHost s t) (hd : s.phase = .done) : SameToHost (deliverWrites s) (deliverWrites t) :=
  { h with
    phase := rfl
    taken := by simp [deliverWrites_eq, h.taken, h.finished hd]
    running := by simp [deliverWrites_eq]
    finished := by simp [deliverWrites_eq] }

/-! ### A whole ADVANCE -/

theorem iterated (h : SameToHost s t) (hr : s.phase = .run) : SameToHost (iterationWrites s) (iterationWrites t) := by
  obtain ⟨-, hd, -⟩ := h.running hr
  unfold iterationWrites
  rw [← hd]
  split
  · exact h.composed hr
  · exact h.skipped hr

theorem looped (n : Nat) (h : SameToHost s t) (hr : s.phase = .run) : SameToHost (loopWrites n s) (loopWrites n t) := by
  induction n generalizing s t with
  | zero => exact h
  | succ n ih =>
    obtain ⟨-, hd, -⟩ := h.running hr
    unfold loopWrites
    rw [← hd]
    split
    · exact h
    · exact ih (h.iterated hr) ((iterationWrites_phase s).trans hr)

theorem ranToDelivery (h : SameToHost s t) (hr : s.phase = .run) : SameToHost (runToDelivery s) (runToDelivery t) := by
  obtain ⟨-, hphase, -⟩ := loopWrites_frame Config.MAX_ITER s
  exact ((h.looped _ hr).applied (hphase.trans hr)).delivered rfl

theorem completed (h : SameToHost s t) : SameToHost (completePending s) (completePending t) := by
  unfold completePending
  rw [← h.phase]
  split
  · exact h
  · next hr => exact h.ranToDelivery hr
  · next hd => exact h.delivered hd

theorem operated (h : SameToHost s t) : SameToHost (operation s) (operation t) :=
  h.accepted.ranToDelivery rfl

/-! ### One tick -/

/-- The control reads DELTA in RUN only, so related states select the same step. -/
theorem selected_eq (h : SameToHost s t) : selected s = selected t := by
  unfold selected
  rw [← h.ports, ← h.phase]
  cases hp : s.phase with
  | idle => rfl
  | run =>
    obtain ⟨-, hd, -⟩ := h.running hp
    rw [hd]
  | done => rfl

/-- One tick's step, whichever row of Table 30-3 selects it. -/
theorem exec_selected (h : SameToHost s t) :
    ∃ s' t', exec (selected s) s = .next s' ∧ exec (selected t) t = .next t' ∧ SameToHost s' t' := by
  rw [← h.selected_eq]
  obtain ⟨-, hi⟩ | ⟨-, -, -, hi⟩ | ⟨-, -, -, hi⟩ | ⟨-, hr, -, -, hi⟩ | ⟨-, hr, -, -, hi⟩ | ⟨-, hr, -, hi⟩ |
    ⟨-, -, -, hi⟩ | ⟨-, hd, -, hi⟩ := selected_cases s <;> rw [hi]
  · exact ⟨_, _, rfl, rfl, h.setPhase_idle⟩
  · exact ⟨_, _, rfl, rfl, h⟩
  · exact ⟨_, _, rfl, rfl, h.accepted⟩
  · exact ⟨_, _, rfl, rfl, h.skipped hr⟩
  · exact ⟨_, _, rfl, rfl, h.composed hr⟩
  · exact ⟨_, _, rfl, rfl, h.applied hr⟩
  · exact ⟨_, _, rfl, rfl, h⟩
  · exact ⟨_, _, rfl, rfl, h.delivered hd⟩

/-- Whatever the host does next, one step keeps two states the same to it. -/
theorem steps (h : SameToHost s t) : ∃ s' t', step s = .next s' ∧ step t = .next t' ∧ SameToHost s' t' := by
  rcases hs : s.moves with _ | ⟨p | w, rest⟩ <;> have ht := h.moves.symm.trans hs
  · rw [step_unlisted s hs, step_unlisted t ht, ← h.draws]
    exact ((h.drive _).moved []).exec_selected
  · rw [step_tick s p rest hs, step_tick t p rest ht]
    exact ((h.drive p).moved rest).exec_selected
  · rw [step_request s w rest hs, step_request t w rest ht]
    exact ⟨_, _, rfl, rfl, ((h.moved rest).completed.drive _).operated⟩

/-! ### What the host sees -/

theorem reqReady_eq (h : SameToHost s t) : s.reqReady = t.reqReady := by
  simp [State.reqReady, h.phase]

theorem rspValid_eq (h : SameToHost s t) : s.rspValid = t.rspValid := by
  simp [State.rspValid, h.phase]

theorem rspResult_eq (h : SameToHost s t) (read : Nat) : s.rspResult read = t.rspResult read := by
  by_cases hd : s.phase = .done
  · rw [rspResult_of_done hd, rspResult_of_done (h.phase ▸ hd), h.finished hd]
  · rw [rspResult_of_ne_done hd, rspResult_of_ne_done (h.phase ▸ hd), h.draws]

end SameToHost

/-- Settles O42: the relation is kept by every step, and related states show the same outputs. -/
theorem historyIsInvisible : Obligations.HistoryIsInvisible := fun _ _ h =>
  let ⟨s', t', hs, ht, h'⟩ := h.steps
  ⟨s', t', hs, ht, h', h'.reqReady_eq, h'.rspValid_eq, h'.rspResult_eq⟩

end Sys2Proof.Machine
end

section
/-! PROOFS. The loop of phase RUN in closed form, what one tick without reset does, the response a unit still owes, and from these
what ADVANCE leaves, how the control steps realise it, and that responses follow requests (20_memory.md R57, R58; 40_advance.md
R100 to R102). -/

namespace Sys2Proof.Machine

/-! ### Powers of one map (R102, R103) -/

theorem powMod_one (m : Word) : powMod m 1 = m := by
  rw [powMod_eq_pow, pow_one]

theorem powMod_add (m : Word) (j k : Nat) : powMod m (j + k) = powMod m j * powMod m k := by
  rw [powMod_eq_pow, powMod_eq_pow, powMod_eq_pow, pow_add]

/-- The multipliers of a map squared are those of the even exponents. -/
theorem powMod_square (m : Word) (k : Nat) : powMod (m * m) k = powMod m (2 * k) := by
  rw [powMod_eq_pow, powMod_eq_pow, ← pow_two, ← pow_mul]

/-- The closed form of `f^k` (R103). -/
theorem lcgIter_eq (m c : Word) (k : Nat) (x : Word) : lcgIter m c k x = powMod m k * x + incMod m c k := by
  induction k with
  | zero => simp [lcgIter, powMod]
  | succ k ih =>
    rw [lcgIter_succ, ih, lcgStep_eq, powMod_succ, incMod_add, incMod_one]
    ring

theorem bitlen_of_zero {d : Word} (h : d.toNat = 0) : bitlen d = 0 := if_pos h

/-! ### The loop of phase RUN in closed form -/

/-- Where the loop of phase RUN ends: DELTA times the doubling map composed onto the accumulated one, and the doubling map
squared `bitlen(DELTA)` times (R102, R130). -/
def loopEnd (s : State) : State :=
  { s with
    delta := 0
    accMult := s.accMult * powMod s.curMult s.delta.toNat
    accInc := s.accInc * powMod s.curMult s.delta.toNat + incMod s.curMult s.curInc s.delta.toNat
    curMult := powMod s.curMult (2 ^ bitlen s.delta)
    curInc := incMod s.curMult s.curInc (2 ^ bitlen s.delta) }

theorem loopEnd_of_exhausted {s : State} (h : s.delta.toNat = 0) : loopEnd s = s := by
  have hd : s.delta = 0 := BitVec.eq_of_toNat_eq h
  have hp : powMod s.curMult 0 = 1 := rfl
  calc loopEnd s = s.setDelta 0 := by simp [loopEnd, State.setDelta, hd, bitlen_of_zero, powMod_one, incMod_one, hp]
    _ = s.setDelta s.delta := by rw [hd]
    _ = s := rfl

/-- An iteration step moves the working registers, not where the loop ends: the halved DELTA counts steps of the squared
doubling map, and a bit shifted out is one step composed already (R101). -/
theorem loopEnd_iterationWrites {s : State} (h : s.delta.toNat ≠ 0) : loopEnd (iterationWrites s) = loopEnd s := by
  have hlen : bitlen s.delta = bitlen (shift s.delta) + 1 := bitlen_of_half _ _ h (shift_toNat _)
  unfold iterationWrites
  split
  · next hb =>
    have hd : s.delta.toNat = 1 + 2 * (shift s.delta).toNat := by
      have := (b0_eq_true _).1 hb
      rw [shift_toNat]
      omega
    simp only [loopEnd, composeSquareShiftWrites_eq, powMod_square, incMod_square, hlen, hd, pow_succ', powMod_add,
      incMod_add, powMod_one, incMod_one, ← powMod_eq_pow, State.mk.injEq, true_and, and_true]
    constructor <;> ring
  · next hb =>
    have hd : s.delta.toNat = 2 * (shift s.delta).toNat := by
      have := (b0_eq_false _).1 (Bool.eq_false_iff.2 hb)
      rw [shift_toNat]
      omega
    simp only [loopEnd, squareShiftWrites_eq, powMod_square, incMod_square, hlen, hd, pow_succ']

/-- With fuel for every bit of DELTA the loop reaches its end. -/
theorem loopWrites_eq_loopEnd (n : Nat) (s : State) (h : s.delta.toNat < 2 ^ n) : loopWrites n s = loopEnd s := by
  induction n generalizing s with
  | zero => exact (loopEnd_of_exhausted (Nat.lt_one_iff.1 h)).symm
  | succ n ih =>
    unfold loopWrites
    split
    · next hz => exact (loopEnd_of_exhausted ((dz_eq_true _).1 hz)).symm
    · next hz =>
      have hne : s.delta.toNat ≠ 0 := by simpa [dz_eq_true] using hz
      have hhalf : (iterationWrites s).delta.toNat < 2 ^ n := by
        rw [iterationWrites_delta, shift_toNat]
        omega
      rw [ih _ hhalf, loopEnd_iterationWrites hne]

/-- The loop's 64 steps are enough for every DELTA (R130). -/
theorem runToDelivery_eq (s : State) : runToDelivery s = deliverWrites (finishWrites (loopEnd s)) := by
  rw [runToDelivery, loopWrites_eq_loopEnd _ s s.delta.isLt]

/-! ### The response a unit owes (R57) -/

/-- What an operation in phase RUN will return: DELTA times the doubling map, applied to the accumulated map of STATE. -/
def State.runValue (s : State) : Word :=
  lcgIter s.curMult s.curInc s.delta.toNat (s.accMult * s.state + s.accInc)

/-- The response still due, if any: at most one, since one operation is in flight (R57). -/
def State.due (s : State) : List Word :=
  match s.phase with
  | .idle => []
  | .run => [s.runValue]
  | .done => [s.result]

theorem due_of_idle {s : State} (h : s.phase = .idle) : s.due = [] := by
  simp [State.due, h]

theorem due_of_run {s : State} (h : s.phase = .run) : s.due = [s.runValue] := by
  simp [State.due, h]

theorem due_of_done {s : State} (h : s.phase = .done) : s.due = [s.result] := by
  simp [State.due, h]

theorem due_of_ne_idle {s : State} (h : s.phase ≠ .idle) : ∃ v, s.due = [v] := by
  cases hp : s.phase with
  | idle => exact absurd hp h
  | run => exact ⟨_, due_of_run hp⟩
  | done => exact ⟨_, due_of_done hp⟩

/-- FINISH at the end of the loop puts the value due into RESULT. -/
theorem finishWrites_loopEnd_result (s : State) : (finishWrites (loopEnd s)).result = s.runValue := by
  simp only [finishWrites_eq, loopEnd, State.runValue, lcgIter_eq]
  ring

theorem runValue_iterationWrites {s : State} (h : s.delta.toNat ≠ 0) : (iterationWrites s).runValue = s.runValue := by
  rw [← finishWrites_loopEnd_result, ← finishWrites_loopEnd_result, loopEnd_iterationWrites h]

theorem due_iterationWrites {s : State} (hr : s.phase = .run) (h : s.delta.toNat ≠ 0) :
    (iterationWrites s).due = s.due := by
  rw [due_of_run hr, due_of_run ((iterationWrites_phase s).trans hr), runValue_iterationWrites h]

theorem due_finishWrites {s : State} (hr : s.phase = .run) (h : s.delta.toNat = 0) : (finishWrites s).due = s.due := by
  rw [due_of_run hr, due_of_done rfl, ← finishWrites_loopEnd_result, loopEnd_of_exhausted h]

theorem runValue_acceptWrites (s : State) : (acceptWrites s).runValue = answer s.ports := by
  simp [State.runValue, acceptWrites_eq, answer, advanceValue]

/-- After ACCEPT the response due is the answer to the request on the ports (R58). -/
theorem due_acceptWrites (s : State) : (acceptWrites s).due = [answer s.ports] := by
  rw [due_of_run rfl, runValue_acceptWrites]

/-- DELIVER hands over what was due, and nothing is due after it (R127). -/
theorem taken_due_deliverWrites {s : State} (hd : s.phase = .done) :
    (deliverWrites s).taken = s.taken ++ s.due ∧ (deliverWrites s).due = [] :=
  ⟨by rw [due_of_done hd]; rfl, rfl⟩

@[simp] theorem acceptWrites_taken (s : State) : (acceptWrites s).taken = s.taken := rfl
@[simp] theorem finishWrites_taken (s : State) : (finishWrites s).taken = s.taken := rfl

/-! ### ADVANCE as one step (R101) -/

/-- Bringing a pending operation to its delivery appends the response due and leaves the host's moves and draws. -/
theorem completePending_taken_moves_draws (s : State) :
    (completePending s).taken = s.taken ++ s.due ∧ (completePending s).moves = s.moves ∧
    (completePending s).draws = s.draws := by
  cases hp : s.phase with
  | idle => simp [completePending, hp, due_of_idle]
  | run =>
    have hdue : s.due = [(finishWrites (loopEnd s)).result] := by rw [due_of_run hp, finishWrites_loopEnd_result]
    simp only [completePending, hp, runToDelivery_eq, hdue]
    exact ⟨rfl, rfl, rfl⟩
  | done =>
    rw [due_of_done hp]
    simp [completePending, hp, deliverWrites_eq]

/-- All that the operation on the ports leaves: it overwrites every register. -/
theorem operation_eq (s : State) : operation s =
    { state := s.ports.reqState, delta := 0,
      accMult := powMod s.ports.reqMult s.ports.reqDelta.toNat,
      accInc := incMod s.ports.reqMult s.ports.reqInc s.ports.reqDelta.toNat,
      curMult := powMod s.ports.reqMult (2 ^ bitlen s.ports.reqDelta),
      curInc := incMod s.ports.reqMult s.ports.reqInc (2 ^ bitlen s.ports.reqDelta),
      result := answer s.ports, phase := .idle, ports := s.ports, moves := s.moves,
      taken := s.taken ++ [answer s.ports], draws := s.draws } := by
  have hresult : (finishWrites (loopEnd (acceptWrites s))).result = answer s.ports := by
    rw [finishWrites_loopEnd_result, runValue_acceptWrites]
  rw [operation, runToDelivery_eq, deliverWrites_eq, hresult]
  simp [finishWrites_eq, loopEnd, acceptWrites_eq]

/-- Settles O25: the operation overwrites every register, and what was pending shows in the responses taken only. -/
theorem advanceLeavesExactly : Obligations.AdvanceLeavesExactly := by
  intro st d m c s
  obtain ⟨htaken, hmoves, hdraws⟩ := completePending_taken_moves_draws s
  change Host.Outcome.next (operation _) = _
  rw [operation_eq]
  simp only [State.drive_ports, State.drive_moves, State.drive_taken, State.drive_draws, htaken, hmoves, hdraws]
  rfl

/-! ### One tick without reset (R129, Table 41-1) -/

/-- The unit with the host at the given ports and draw: the registers and the responses taken stay. -/
def State.hostAt (s : State) (q : Inputs) (n : Nat) : State :=
  { s with ports := q, draws := n }

@[simp] theorem hostAt_delta (s : State) (q : Inputs) (n : Nat) : (s.hostAt q n).delta = s.delta := rfl
@[simp] theorem hostAt_ports (s : State) (q : Inputs) (n : Nat) : (s.hostAt q n).ports = q := rfl
@[simp] theorem hostAt_taken (s : State) (q : Inputs) (n : Nat) : (s.hostAt q n).taken = s.taken := rfl
@[simp] theorem hostAt_due (s : State) (q : Inputs) (n : Nat) : (s.hostAt q n).due = s.due := rfl

/-- The state a tick's control step starts from: the host drives `p`, one draw further. -/
abbrev State.ticked (s : State) (p : Inputs) : State :=
  s.hostAt p (s.draws + 1)

/-- A tick runs the control step selected under the driven ports. -/
theorem stepWith_tick (p : Inputs) (s : State) :
    stepWith (.tick p) s = exec (selected (s.ticked p)) (s.ticked p) :=
  step_tick _ p s.moves rfl

/-- In IDLE a tick without reset is ACCEPT or WAIT (R121, R122). -/
theorem stepWith_idle {p : Inputs} {s : State} (hp : p.rst = false) (h : s.phase = .idle) :
    stepWith (.tick p) s = .next (if p.reqValid then acceptWrites (s.ticked p) else s.ticked p) := by
  have hsel : selected (s.ticked p) = if p.reqValid then .accept else .wait := by
    simp [selected, State.ticked, State.hostAt, hp, h]
  rw [stepWith_tick, hsel]
  split <;> rfl

/-- In RUN a tick without reset is FINISH when DELTA is 0 and an iteration step before that (R123, R124, R125, R129). -/
theorem stepWith_run {p : Inputs} {s : State} (hp : p.rst = false) (h : s.phase = .run) :
    stepWith (.tick p) s =
      .next (if s.delta.toNat = 0 then finishWrites (s.ticked p) else iterationWrites (s.ticked p)) := by
  have hsel : selected (s.ticked p) =
      if s.delta.toNat = 0 then .finish else if b0 s.delta then .iterCompose else .iterSkip := by
    simp [selected, State.ticked, State.hostAt, hp, h, dz_eq_true]
  have hiter : exec (if b0 s.delta then .iterCompose else .iterSkip) (s.ticked p) =
      .next (iterationWrites (s.ticked p)) := by
    rw [iterationWrites, hostAt_delta]
    split <;> rfl
  rw [stepWith_tick, hsel]
  split
  · rfl
  · exact hiter

/-- In DONE a tick without reset is DELIVER or HOLD (R126, R127). -/
theorem stepWith_done {p : Inputs} {s : State} (hp : p.rst = false) (h : s.phase = .done) :
    stepWith (.tick p) s = .next (if p.rspReady then deliverWrites (s.ticked p) else s.ticked p) := by
  have hsel : selected (s.ticked p) = if p.rspReady then .deliver else .hold := by
    simp [selected, State.ticked, State.hostAt, hp, h]
  rw [stepWith_tick, hsel]
  split <;> rfl

/-! ### Runs of ticks -/

theorem runTicks_cons {p : Inputs} {s t : State} (h : stepWith (.tick p) s = .next t) (ps : List Inputs) :
    runTicks (p :: ps) s = runTicks ps t := by
  simp [runTicks, h]

theorem runTicks_append {ps : List Inputs} {s t : State} (h : runTicks ps s = .next t) (qs : List Inputs) :
    runTicks (ps ++ qs) s = runTicks qs t := by
  induction ps generalizing s with
  | nil =>
    cases h
    rfl
  | cons p ps ih =>
    cases hstep : stepWith (.tick p) s with
    | next u =>
      have h := (runTicks_cons hstep ps).symm.trans h
      rw [List.cons_append, runTicks_cons hstep, ih h]
    | fault r => simp [runTicks, hstep] at h
    | refused r => simp [runTicks, hstep] at h

theorem acceptedIn_cons {p : Inputs} {s t : State} (h : stepWith (.tick p) s = .next t) (ps : List Inputs) :
    acceptedIn (p :: ps) s = acceptedIn [p] s ++ acceptedIn ps t := by
  simp only [acceptedIn, h]
  split <;> rfl

/-- A tick accepts a request exactly when ACCEPT is selected at it (R205). -/
theorem acceptedIn_singleton {p : Inputs} {s t : State} (h : stepWith (.tick p) s = .next t) :
    acceptedIn [p] s = if p.rst = false ∧ s.phase = .idle ∧ p.reqValid = true then [p] else [] := by
  simp [acceptedIn, h]

/-! ### The control steps realise ADVANCE (R101, R207, R208) -/

/-- From RUN, one tick for each iteration step and one for FINISH bring the loop to its end, whatever the ports carry but reset. -/
theorem runTicks_working {ps : List Inputs} {s : State} (hr : s.phase = .run) (hps : NoReset ps)
    (hlen : ps.length = bitlen s.delta + 1) :
    ∃ q n, runTicks ps s = .next (finishWrites ((loopEnd s).hostAt q n)) := by
  induction ps generalizing s with
  | nil => simp at hlen
  | cons p ps ih =>
    obtain ⟨hp, hps⟩ := List.forall_mem_cons.1 hps
    have hlen : ps.length = bitlen s.delta := by simpa using hlen
    rw [runTicks_cons (stepWith_run hp hr)]
    split
    · next hz =>
      obtain rfl : ps = [] := List.eq_nil_of_length_eq_zero (hlen.trans (bitlen_of_zero hz))
      rw [loopEnd_of_exhausted hz]
      exact ⟨_, _, rfl⟩
    · next hne =>
      have hhalf : ps.length = bitlen (iterationWrites (s.ticked p)).delta + 1 := by
        rw [iterationWrites_delta, hlen]
        exact bitlen_of_half _ _ hne (shift_toNat _)
      obtain ⟨q, n, hrun⟩ := ih ((iterationWrites_phase (s.ticked p)).trans hr) hps hhalf
      rw [loopEnd_iterationWrites (s := s.ticked p) hne] at hrun
      exact ⟨q, n, hrun⟩

/-- In DONE the registers wait for the host (R126, R207). -/
theorem runTicks_holding {ps : List Inputs} {s : State} (hd : s.phase = .done)
    (hps : ∀ p ∈ ps, p.rst = false ∧ p.rspReady = false) : ∃ q n, runTicks ps s = .next (s.hostAt q n) := by
  induction ps generalizing s with
  | nil => exact ⟨s.ports, s.draws, rfl⟩
  | cons p ps ih =>
    obtain ⟨⟨hp, hready⟩, hps⟩ := List.forall_mem_cons.1 hps
    rw [runTicks_cons (stepWith_done hp hd), hready]
    exact ih hd hps

/-- The ticks of one whole operation from IDLE leave what the operation on the ports leaves as one step, but for the ports and
the draw: the loop and FINISH, the held ticks, and then DELIVER. -/
theorem runTicks_operation {s : State} {p q : Inputs} {working holding : List Inputs} (hidle : s.phase = .idle)
    (hp : p.rst = false) (hvalid : p.reqValid = true) (hworking : NoReset working)
    (hlen : working.length = bitlen p.reqDelta + 1) (hholding : ∀ h ∈ holding, h.rst = false ∧ h.rspReady = false)
    (hq : q.rst = false) (hready : q.rspReady = true) :
    ∃ n, runTicks (p :: working ++ holding ++ [q]) s = .next ((operation (s.drive p)).hostAt q n) := by
  have haccept := stepWith_idle hp hidle
  rw [if_pos hvalid] at haccept
  obtain ⟨q₁, n₁, hwork⟩ := runTicks_working (s := acceptWrites (s.ticked p)) rfl hworking hlen
  obtain ⟨q₂, n₂, hhold⟩ := runTicks_holding
    (s := finishWrites ((loopEnd (acceptWrites (s.ticked p))).hostAt q₁ n₁)) rfl hholding
  refine ⟨n₂ + 1, ?_⟩
  rw [List.append_assoc, List.cons_append, runTicks_cons haccept, runTicks_append hwork, runTicks_append hhold,
    runTicks_cons (stepWith_done hq rfl), if_pos hready, operation, runToDelivery_eq]
  rfl

/-- Settles O26: both grains leave what the operation leaves, which reads no port but the operands. -/
theorem controlStepsRealiseAdvance : Obligations.ControlStepsRealiseAdvance := by
  intro s p working holding q hidle hp hvalid hworking hlen hholding hq hready
  obtain ⟨n, hrun⟩ := runTicks_operation hidle hp hvalid hworking hlen hholding hq hready
  have hnothing : completePending s = s := by simp [completePending, hidle]
  have hadvance : exec (.advance p.reqState p.reqDelta p.reqMult p.reqInc) s =
      .next (operation (s.drive (.presenting p.reqState p.reqDelta p.reqMult p.reqInc))) := by
    simp only [exec, execAdvance, hnothing]
  rw [operation_eq] at hrun hadvance
  exact ⟨_, _, hrun, hadvance, ⟨rfl, rfl, rfl, rfl, rfl, rfl, rfl, rfl⟩, rfl⟩

/-! ### Responses follow requests (R57, R58) -/

/-- One tick without reset: responses taken are never lost, and the response due enters with the request accepted, waits through
the loop, and leaves with DELIVER. -/
theorem stepWith_responses {p : Inputs} (hp : p.rst = false) (s : State) :
    ∃ t, stepWith (.tick p) s = .next t ∧ s.taken <+: t.taken ∧
      t.taken ++ t.due = s.taken ++ s.due ++ (acceptedIn [p] s).map answer := by
  cases hphase : s.phase with
  | idle =>
    have hstep := stepWith_idle hp hphase
    refine ⟨_, hstep, ?_⟩
    rw [acceptedIn_singleton hstep, due_of_idle hphase]
    split
    · next hv => exact ⟨List.prefix_rfl, by simp [due_acceptWrites, hp, hphase, hv]⟩
    · next hv => exact ⟨List.prefix_rfl, by simp [due_of_idle hphase, hv]⟩
  | run =>
    have hstep := stepWith_run hp hphase
    refine ⟨_, hstep, ?_⟩
    rw [acceptedIn_singleton hstep]
    split
    · next hz =>
      exact ⟨List.prefix_rfl, by simp [due_finishWrites (s := s.ticked p) hphase hz, hphase]⟩
    · next hne =>
      have hdue := due_iterationWrites (s := s.ticked p) hphase hne
      exact ⟨by simp, by simp [hdue, hphase]⟩
  | done =>
    have hstep := stepWith_done hp hphase
    refine ⟨_, hstep, ?_⟩
    rw [acceptedIn_singleton hstep]
    split
    · next hr =>
      obtain ⟨htaken, hnone⟩ := taken_due_deliverWrites (s := s.ticked p) hphase
      exact ⟨by simp [htaken], by simp [htaken, hnone, hphase]⟩
    · next hr => exact ⟨List.prefix_rfl, by simp [hphase]⟩

/-- Over a run without reset the responses taken and the one due are those of before and the answers to the requests accepted. -/
theorem runTicks_responses {ps : List Inputs} (hps : NoReset ps) (s : State) :
    ∃ t, runTicks ps s = .next t ∧ s.taken <+: t.taken ∧
      t.taken ++ t.due = s.taken ++ s.due ++ (acceptedIn ps s).map answer := by
  induction ps generalizing s with
  | nil => exact ⟨s, rfl, List.prefix_rfl, by simp [acceptedIn]⟩
  | cons p ps ih =>
    obtain ⟨hp, hps⟩ := List.forall_mem_cons.1 hps
    obtain ⟨u, hstep, htaken, hdue⟩ := stepWith_responses hp s
    obtain ⟨t, hrun, htaken', hdue'⟩ := ih hps u
    refine ⟨t, (runTicks_cons hstep ps).trans hrun, htaken.trans htaken', ?_⟩
    rw [hdue', hdue, acceptedIn_cons hstep ps, List.map_append, List.append_assoc _ _ (List.map _ _)]

/-- Settles O43: the run starts with nothing due, and outside IDLE exactly the last response is due at its end. -/
theorem responsesFollowRequests : Obligations.ResponsesFollowRequests := by
  intro s ps hidle hps
  obtain ⟨t, hrun, ⟨new, hnew⟩, hdue⟩ := runTicks_responses hps s
  rw [due_of_idle hidle, List.append_nil] at hdue
  refine ⟨t, hrun, fun ht => ?_, fun ht => ?_⟩
  · rw [← hdue, due_of_idle ht, List.append_nil]
  · obtain ⟨v, hv⟩ := due_of_ne_idle ht
    have hanswers : (acceptedIn ps s).map answer = new ++ [v] := by
      rw [hv, ← hnew, List.append_assoc] at hdue
      exact (List.append_cancel_left hdue).symm
    constructor
    · intro hnone
      simp [hnone] at hanswers
    · rw [List.map_dropLast, hanswers, List.dropLast_concat, hnew]

end Sys2Proof.Machine
end

section
/-! PROOFS. The control table read by masks and matches, the selection vector bit by bit, the request word by weight, and from these
that the decoder and the encoder agree and that a placed word is what the next step runs (30_encoding.md R71 to R77). -/

namespace Sys2Proof.Machine

/-! ### The rows of Table 30-3 (R75, R76) -/

theorem accepts_iff {r : SelRow} {w : SelWord} : r.accepts w = true ↔ w &&& r.mask = r.value := by
  simp [SelRow.accepts]

/-- Two masked readings of one word agree where both masks look. -/
theorem masked_readings_agree {w m n a b : SelWord} (ha : w &&& m = a) (hb : w &&& n = b) : a &&& n = b &&& m := by
  rw [← ha, ← hb, BitVec.and_assoc, BitVec.and_assoc, BitVec.and_comm m n]

/-- Any two different rows of the table differ in a bit that both require. -/
theorem selTable_rows_apart :
    ∀ r ∈ selTable, ∀ q ∈ selTable, r.value &&& q.mask = q.value &&& r.mask → r = q := by
  decide

theorem selTable_disjoint {r q : SelRow} (hr : r ∈ selTable) (hq : q ∈ selTable) {w : SelWord}
    (hrw : r.accepts w = true) (hqw : q.accepts w = true) : r = q :=
  selTable_rows_apart r hr q hq (masked_readings_agree (accepts_iff.1 hrw) (accepts_iff.1 hqw))

/-- The decoder answers the step of a row exactly when that row accepts: the search order does not matter (R76). -/
theorem decodeSel_eq_ok_iff {w : SelWord} {i : Instr} :
    decodeSel w = .ok i ↔ ∃ r ∈ selTable, r.accepts w = true ∧ r.step = i := by
  unfold decodeSel
  split
  · next q hfind =>
    have hq := List.mem_of_find?_eq_some hfind
    have hqw := List.find?_some (p := fun r : SelRow => r.accepts w) hfind
    constructor
    · intro h
      exact ⟨q, hq, hqw, Except.ok.inj h⟩
    · rintro ⟨r, hr, hrw, rfl⟩
      rw [selTable_disjoint hr hq hrw hqw]
  · next hfind =>
    constructor
    · intro h
      cases h
    · rintro ⟨r, hr, hrw, -⟩
      exact absurd hrw (List.find?_eq_none.1 hfind r hr)

/-- The decoder's only refusal is by the word itself. -/
theorem decodeSel_eq_error_iff {w : SelWord} :
    decodeSel w = .error (.reservedSelection w) ↔ ¬ ∃ r ∈ selTable, r.accepts w = true := by
  unfold decodeSel
  split
  · next q hfind =>
    have hqw := List.find?_some (p := fun r : SelRow => r.accepts w) hfind
    exact iff_of_false nofun (not_not_intro ⟨q, List.mem_of_find?_eq_some hfind, hqw⟩)
  · next hfind => simpa using hfind

/-! ### The reserved region (R77) -/

theorem sel_wellFormed_iff (w : SelWord) : (Encoded.sel w).wellFormed = true ↔ w &&& 0x70 ≠ 0x30 := by
  revert w
  decide

/-- Every row requires a bit that no word of the reserved region has. -/
theorem selTable_rows_apart_from_reserved : ∀ r ∈ selTable, r.value &&& 0x70 ≠ 0x30 &&& r.mask := by
  decide

theorem wellFormed_of_accepts {r : SelRow} (hr : r ∈ selTable) {w : SelWord} (h : r.accepts w = true) :
    (Encoded.sel w).wellFormed = true :=
  (sel_wellFormed_iff w).2 fun hreserved =>
    selTable_rows_apart_from_reserved r hr (masked_readings_agree (accepts_iff.1 h) hreserved)

/-- The table is total outside the reserved region (R76). -/
theorem exists_row_accepts (w : SelWord) (h : (Encoded.sel w).wellFormed = true) : ∃ r ∈ selTable, r.accepts w = true := by
  revert w
  decide

theorem wellFormed_of_decodeSel {w : SelWord} {i : Instr} (h : decodeSel w = .ok i) : (Encoded.sel w).wellFormed = true := by
  obtain ⟨r, hr, hw, -⟩ := decodeSel_eq_ok_iff.1 h
  exact wellFormed_of_accepts hr hw

/-! ### Encoding a control step (R75) -/

/-- A word is its required bits and its ignored ones. -/
theorem and_or_and_not (w m : SelWord) : w &&& m ||| w &&& ~~~m = w := by
  rw [← BitVec.and_or_distrib_left, BitVec.or_not_self, BitVec.and_allOnes]

theorem encodeWith_step {r : SelRow} (hr : r ∈ selTable) (ignored : SelWord) :
    encodeWith r.step ignored = .sel (r.value ||| (ignored &&& ~~~r.mask)) := by
  fin_cases hr <;> rfl

/-- Every match lies under its mask. -/
theorem selTable_value_under_mask : ∀ r ∈ selTable, r.value &&& r.mask = r.value := by
  decide

theorem accepts_encoding {r : SelRow} (hr : r ∈ selTable) (ignored : SelWord) :
    r.accepts (r.value ||| (ignored &&& ~~~r.mask)) = true := by
  have hignored : (ignored &&& ~~~r.mask) &&& r.mask = 0 := by
    rw [BitVec.and_assoc, BitVec.and_comm _ r.mask, BitVec.and_not_self]
    exact BitVec.and_zero
  rw [accepts_iff, BitVec.and_or_distrib_right, selTable_value_under_mask r hr, hignored]
  exact BitVec.or_zero

/-- Every operation but ADVANCE has its row (R81). -/
theorem advance_or_row (i : Instr) : (∃ st d m c, i = .advance st d m c) ∨ ∃ r ∈ selTable, r.step = i := by
  cases i with
  | advance st d m c => exact .inl ⟨st, d, m, c, rfl⟩
  | _ => exact .inr (by decide)

/-! ### The request word (R71) -/

/-- Concatenation by weight. -/
theorem toNat_append_eq_add {m n : Nat} (x : BitVec m) (y : BitVec n) : (x ++ y).toNat = x.toNat * 2 ^ n + y.toNat := by
  rw [BitVec.toNat_append, ← Nat.shiftLeft_add_eq_or_of_lt y.isLt, Nat.shiftLeft_eq]

theorem encodeReq_toNat (st d m c : Word) : (encodeReq st d m c).toNat =
    c.toNat * 2 ^ 192 + m.toNat * 2 ^ 128 + d.toNat * 2 ^ 64 + st.toNat := by
  simp only [encodeReq, toNat_append_eq_add]
  ring

theorem extractLsb'_eq_ofNat_div (w : ReqWord) (k : Nat) : w.extractLsb' k 64 = BitVec.ofNat 64 (w.toNat / 2 ^ k) := by
  rw [← Nat.shiftRight_eq_div_pow]
  rfl

/-- Settles O4: concatenation by weight, and each field a quotient by its weight. -/
theorem requestWordLayout : Obligations.RequestWordLayout := by
  refine ⟨encodeReq_toNat, fun w => ?_⟩
  simp only [decode, decodeReq, extractLsb'_eq_ofNat_div, pow_zero, Nat.div_one]

/-- The four fields of a word, put together again, are the word. -/
theorem encodeReq_fields (w : ReqWord) : encodeReq (w.extractLsb' 0 64) (w.extractLsb' 64 64)
    (w.extractLsb' 128 64) (w.extractLsb' 192 64) = w := by
  apply BitVec.eq_of_toNat_eq
  have := w.isLt
  simp only [encodeReq_toNat, extractLsb'_eq_ofNat_div, BitVec.toNat_ofNat]
  omega

/-! ### Decode and encode agree (R71, R75) -/

/-- Settles O5: a request word is its four fields; a vector is decoded by the one row that accepts it, and consists of the bits
this row requires and the bits it ignores. -/
theorem decodeAndEncodeAgree : Obligations.DecodeAndEncodeAgree := by
  constructor
  · intro i ignored _
    obtain ⟨st, d, m, c, rfl⟩ | ⟨r, hr, rfl⟩ := advance_or_row i
    · exact congrArg Except.ok (Laws.RoundTrip.decodeReq_encodeReq st d m c)
    · rw [encodeWith_step hr]
      exact decodeSel_eq_ok_iff.2 ⟨r, hr, accepts_encoding hr ignored, rfl⟩
  · intro e i h
    cases e with
    | req w =>
      obtain rfl := Except.ok.inj h
      exact ⟨rfl, 0, congrArg Encoded.req (encodeReq_fields w)⟩
    | sel w =>
      obtain ⟨r, hr, hw, rfl⟩ := decodeSel_eq_ok_iff.1 h
      refine ⟨wellFormed_of_accepts hr hw, w, ?_⟩
      rw [encodeWith_step hr, ← accepts_iff.1 hw, and_or_and_not]

/-! ### The bits of the selection vector (R74) -/

theorem ofCode_eq_some_iff (p : Phase) (c : BitVec 2) : Phase.ofCode c = some p ↔ p.code = c := by
  revert c
  cases p <;> decide

theorem ofCode_eq_none_iff {w : SelWord} :
    Phase.ofCode (w.extractLsb' 4 2) = none ↔ (w.getLsbD 5 && w.getLsbD 4) = true := by
  revert w
  decide

/-- `SEL[6:0]` reads back the seven values it is formed from. -/
theorem vectorOf_bits (t : Bool) (p : Phase) (v z b r : Bool) :
    (vectorOf t p v z b r).getLsbD 6 = t ∧ (vectorOf t p v z b r).getLsbD 5 = p.code.getLsbD 1 ∧
    (vectorOf t p v z b r).getLsbD 4 = p.code.getLsbD 0 ∧ (vectorOf t p v z b r).getLsbD 3 = v ∧
    (vectorOf t p v z b r).getLsbD 2 = z ∧ (vectorOf t p v z b r).getLsbD 1 = b ∧
    (vectorOf t p v z b r).getLsbD 0 = r := by
  revert t v z b r
  cases p <;> decide

theorem code_bit1 (p : Phase) : p.code.getLsbD 1 = decide (p = .done) := by
  cases p <;> rfl

theorem code_bit0 (p : Phase) : p.code.getLsbD 0 = decide (p = .run) := by
  cases p <;> rfl

theorem dz_eq_decide (d : Word) : dz d = decide (d = 0) := by
  simp [dz, ← BitVec.toNat_inj, beq_eq_decide]

/-- The bits of the vector a state forms, in the model's own terms. -/
theorem selectionVector_bits (s : State) :
    (selectionVector s).getLsbD 6 = s.ports.rst ∧ (selectionVector s).getLsbD 5 = s.phase.code.getLsbD 1 ∧
    (selectionVector s).getLsbD 4 = s.phase.code.getLsbD 0 ∧ (selectionVector s).getLsbD 3 = s.ports.reqValid ∧
    (selectionVector s).getLsbD 2 = dz s.delta ∧ (selectionVector s).getLsbD 1 = b0 s.delta ∧
    (selectionVector s).getLsbD 0 = s.ports.rspReady :=
  vectorOf_bits s.ports.rst s.phase s.ports.reqValid (dz s.delta) (b0 s.delta) s.ports.rspReady

/-- Settles O2, bit by bit. -/
theorem selectionVectorLayout : Obligations.SelectionVectorLayout := by
  intro s
  rw [← code_bit1, ← code_bit0, ← dz_eq_decide]
  exact selectionVector_bits s

/-- No number is 0 and odd (R76). -/
theorem dz_and_b0 (d : Word) : (dz d && b0 d) = false := by
  cases hz : dz d with
  | false => rfl
  | true =>
    have := (dz_eq_true d).1 hz
    rw [Bool.true_and, b0_eq_false, this]

/-- Settles O3: the nine counts by evaluation; disjointness from the rows' masks; a word is refused exactly where no row accepts, which
is the reserved region; and a state's vector decodes, so one row accepts it. -/
theorem controlTableTotalAndDisjoint : Obligations.ControlTableTotalAndDisjoint := by
  refine ⟨by decide, by decide, by decide, by decide, by decide, by decide, by decide, by decide, by decide,
    fun w => ?_, fun w r hr q hq => selTable_disjoint hr hq, fun s => ?_, fun s => ?_⟩
  · change _ ↔ decodeSel w = _
    rw [decodeSel_eq_error_iff]
    constructor
    · rintro hreserved ⟨r, hr, hw⟩
      exact (sel_wellFormed_iff w).1 (wellFormed_of_accepts hr hw) hreserved
    · intro hnone
      by_contra hne
      exact hnone (exists_row_accepts w ((sel_wellFormed_iff w).2 hne))
  · obtain ⟨-, -, -, -, hz, hb, -⟩ := selectionVector_bits s
    rw [hz, hb, dz_and_b0]
  · obtain ⟨r, hr, hw, -⟩ := decodeSel_eq_ok_iff.1 (decode_selectionVector s)
    exact ⟨r, ⟨hr, hw⟩, fun q ⟨hq, hqw⟩ => selTable_disjoint hq hr hqw hw⟩

/-- Settles O6, by running the decoder on each of the nine words. -/
theorem writtenOutWordsDecode : Obligations.WrittenOutWordsDecode :=
  ⟨rfl, rfl, rfl, rfl, rfl, rfl, rfl, rfl, rfl⟩

/-! ### What a step fetches and runs (R74, R75, R128) -/

theorem step_of_decode {s : State} {i : Instr} (h : decode (fetch s).1 = .ok i) : step s = exec i (fetch s).2 := by
  simp [step, h]

/-- Settles O1: fetch reads the host's next move, and step runs what decodes. -/
theorem stepRunsTheDecodedOperation : Obligations.StepRunsTheDecodedOperation := by
  refine fun s => ⟨fun i => step_of_decode, fun p rest h => ?_, fun w rest h => ?_, fun h => ?_⟩
  · simp only [fetch, h]
    rfl
  · simp only [fetch, h]
    rfl
  · simp only [fetch, h]
    rfl

/-! ### Placing a word (R71, R74) -/

/-- A word whose PHASE code is that of a phase is the vector of its bits. -/
theorem eq_vectorOf {w : SelWord} {p : Phase} (h : Phase.ofCode (w.extractLsb' 4 2) = some p) :
    w = vectorOf (w.getLsbD 6) p (w.getLsbD 3) (w.getLsbD 2) (w.getLsbD 1) (w.getLsbD 0) := by
  have hcode := (ofCode_eq_some_iff p _).1 h
  obtain ⟨h6, h5, h4, h3, h2, h1, h0⟩ :=
    vectorOf_bits (w.getLsbD 6) p (w.getLsbD 3) (w.getLsbD 2) (w.getLsbD 1) (w.getLsbD 0)
  apply BitVec.eq_of_getLsbD_eq
  intro i hi
  interval_cases i
  · exact h0.symm
  · exact h1.symm
  · exact h2.symm
  · exact h3.symm
  · rw [h4, hcode]
    simp
  · rw [h5, hcode]
    simp
  · exact h6.symm

theorem step_withFetchWord_request (s : State) (w : ReqWord) :
    step (s.withFetchWord 256 w.toNat) = exec (decodeReq w) { s with draws := s.draws + 1 } := by
  have hplaced : s.withFetchWord 256 w.toNat = s.withRequest w := by simp [State.withFetchWord]
  rw [hplaced, step_request (s.withRequest w) w s.moves rfl]
  rfl

/-- The count placed has the two bits asked for; where both are, `dz` counts (R76). -/
theorem dz_b0_deltaWith (d : Word) (z b : Bool) : dz (deltaWith d z b) = z ∧ b0 (deltaWith d z b) = (!z && b) := by
  unfold deltaWith
  cases z with
  | true =>
    rw [if_pos rfl]
    exact ⟨rfl, rfl⟩
  | false =>
    rw [if_neg Bool.false_ne_true]
    split
    · next h => exact h
    · cases b <;> exact ⟨rfl, rfl⟩

/-- The ports of the tick that a vector is placed with. -/
def placedPorts (s : State) (w : SelWord) : Inputs :=
  { s.ports with rst := w.getLsbD 6, reqValid := w.getLsbD 3, rspReady := w.getLsbD 0 }

/-- The state in which the control forms its vector at the step after `w` is placed. -/
def placedAt (s : State) (w : SelWord) : State :=
  ((s.withSelection w).drive (placedPorts s w)).moved s.moves

theorem step_withFetchWord_sel (s : State) (w : SelWord) :
    step (s.withFetchWord 7 w.toNat) = exec (selected (placedAt s w)) (placedAt s w) := by
  have hplaced : s.withFetchWord 7 w.toNat = s.withSelection w := by simp [State.withFetchWord]
  rw [hplaced]
  exact step_tick (s.withSelection w) (placedPorts s w) s.moves rfl

/-- The vector formed after `w` is placed: `w`, but for a reserved phase code and a `b0` beside `dz`. -/
theorem selectionVector_placedAt (s : State) (w : SelWord) : selectionVector (placedAt s w) =
    vectorOf (w.getLsbD 6) ((Phase.ofCode (w.extractLsb' 4 2)).getD s.phase) (w.getLsbD 3) (w.getLsbD 2)
      (!w.getLsbD 2 && w.getLsbD 1) (w.getLsbD 0) := by
  obtain ⟨hz, hb⟩ := dz_b0_deltaWith s.delta (w.getLsbD 2) (w.getLsbD 1)
  change vectorOf _ _ _ (dz (deltaWith ..)) (b0 (deltaWith ..)) _ = _
  rw [hz, hb]
  rfl

/-- A row that requires `dz = 1` ignores `b0`. -/
theorem rowOf_b0_under_dz (t : Bool) (p : Phase) (v z b r : Bool) : rowOf t p v z (!z && b) r = rowOf t p v z b r := by
  cases z <;> rfl

theorem decodeSel_of_rst {w : SelWord} (h : w.getLsbD 6 = true) : decodeSel w = .ok .reset := by
  revert w
  decide

/-- A word of the reserved phase code decodes only under `rst` (R77). -/
theorem rst_of_decodeSel {w : SelWord} {i : Instr} (hcode : Phase.ofCode (w.extractLsb' 4 2) = none)
    (h : decodeSel w = .ok i) : w.getLsbD 6 = true := by
  have hw : (w.getLsbD 6 || !(w.getLsbD 5 && w.getLsbD 4)) = true := wellFormed_of_decodeSel h
  rwa [ofCode_eq_none_iff.1 hcode, Bool.not_true, Bool.or_false] at hw

/-- What is selected after `w` is placed is what `w` decodes to, `formable` or not: a bit lost in placing it is one its row ignores. -/
theorem selected_placedAt (s : State) {w : SelWord} {i : Instr} (h : decodeSel w = .ok i) :
    selected (placedAt s w) = i := by
  have hsel : decodeSel (selectionVector (placedAt s w)) = .ok (selected (placedAt s w)) := decode_selectionVector _
  rw [selectionVector_placedAt, decodeSel_vectorOf, rowOf_b0_under_dz] at hsel
  rw [← Except.ok.inj hsel]
  cases hcode : Phase.ofCode (w.extractLsb' 4 2) with
  | some p =>
    rw [eq_vectorOf hcode, decodeSel_vectorOf] at h
    exact Except.ok.inj h
  | none =>
    have hrst := rst_of_decodeSel hcode h
    rw [decodeSel_of_rst hrst] at h
    rw [hrst]
    exact Except.ok.inj h

theorem selectionVector_placedAt_of_formable (s : State) {w : SelWord} (h : (Encoded.sel w).formable = true) :
    selectionVector (placedAt s w) = w := by
  obtain ⟨hzb, hphase⟩ : (!(w.getLsbD 2 && w.getLsbD 1)) = true ∧ (!(w.getLsbD 5 && w.getLsbD 4)) = true :=
    Bool.and_eq_true_iff.1 h
  have hclear : ∀ z b : Bool, (!(z && b)) = true → (!z && b) = b := by decide
  cases hcode : Phase.ofCode (w.extractLsb' 4 2) with
  | some p =>
    rw [selectionVector_placedAt, hclear _ _ hzb, hcode, Option.getD_some]
    exact (eq_vectorOf hcode).symm
  | none =>
    rw [ofCode_eq_none_iff.1 hcode] at hphase
    cases hphase

/-- Settles O46: the next step selects what the word decodes to, and forms the word itself where any state does. -/
theorem placedWordRuns : Obligations.PlacedWordRuns := by
  refine ⟨step_withFetchWord_request, fun s w i h => ⟨placedAt s w, ?_, selectionVector_placedAt_of_formable s⟩⟩
  rw [step_withFetchWord_sel, selected_placedAt s h]

end Sys2Proof.Machine
end

section
/-! PROOFS. The one-step map of an odd multiplier has a period dividing 2^64, so stepping by the complement of a count undoes it
(40_advance.md R105, R107, R116); and with it what the lines of a host script do (30_encoding.md R79, R80). -/

namespace Sys2Proof.Machine

/-! ### Odd multipliers (R116, R105) -/

theorem odd_of_isOdd {m : Word} (h : isOdd m = true) : Odd m := by
  have hm : m.toNat = 2 * (m.toNat / 2) + 1 := by
    have : m.toNat % 2 = 1 := by simpa [isOdd] using h
    omega
  refine ⟨BitVec.ofNat 64 (m.toNat / 2), BitVec.eq_of_toNat_eq ?_⟩
  have := m.isLt
  simp [BitVec.toNat_add, BitVec.toNat_mul]
  omega

/-- Each doubling of the exponent brings one factor 2 into the increment: `G(2k) = G(k) * (m^k + 1)`, and `m^k` is odd. -/
theorem two_pow_dvd_incMod {m : Word} (hm : Odd m) (c : Word) (n : Nat) : (2 : Word) ^ n ∣ incMod m c (2 ^ n) := by
  induction n with
  | zero => exact one_dvd _
  | succ n ih =>
    have hdouble : incMod m c (2 ^ (n + 1)) = incMod m c (2 ^ n) * (m ^ 2 ^ n + 1) := by
      rw [pow_succ, mul_two, incMod_add]
      ring
    rw [hdouble, pow_succ]
    exact mul_dvd_mul ih hm.pow.add_one.two_dvd

theorem two_pow_width : (2 : Word) ^ 64 = 0 := by
  rw [← powMod_eq_pow]
  decide

theorem incMod_fullCycle {m : Word} (hm : Odd m) (c : Word) : incMod m c (2 ^ 64) = 0 := by
  simpa only [two_pow_width, zero_dvd_iff] using two_pow_dvd_incMod hm c 64

/-- A power of the multiplier is 1 more than the increment of the map `x -> m*x + (m - 1)`, whose fixed point is -1. -/
theorem powMod_eq_one_add_incMod (m : Word) (k : Nat) : powMod m k = 1 + incMod m (m - 1) k := by
  induction k with
  | zero => simp [powMod]
  | succ k ih =>
    rw [powMod_succ, incMod_succ, ← powMod_eq_pow]
    linear_combination ih

theorem powMod_fullCycle {m : Word} (hm : Odd m) : powMod m (2 ^ 64) = 1 := by
  rw [powMod_eq_one_add_incMod, incMod_fullCycle hm, add_zero]

theorem lcgIter_fullCycle {m : Word} (hm : Odd m) (c x : Word) : lcgIter m c (2 ^ 64) x = x := by
  rw [lcgIter_eq, powMod_fullCycle hm, incMod_fullCycle hm, one_mul, add_zero]

/-- A count and its complement make no step or a full cycle. -/
theorem toNat_add_negMod (d : Word) : d.toNat + (negMod d).toNat = 0 ∨ d.toNat + (negMod d).toNat = 2 ^ 64 := by
  have := d.isLt
  simp only [negMod, BitVec.toNat_ofNat]
  omega

theorem advanceValue_negMod {m : Word} (hm : Odd m) (st d c : Word) :
    advanceValue (advanceValue st d m c) (negMod d) m c = st := by
  unfold advanceValue
  rw [← lcgIter_add]
  obtain h | h := toNat_add_negMod d
  · rw [h]
    rfl
  · rw [h, lcgIter_fullCycle hm]

/-! ### The lines of a script (R79) -/

/-- The response the host takes last in an ADVANCE is the iterated map's value (R100). -/
theorem exec_advance_returns (st d m c : Word) (s : State) :
    ∃ t, exec (.advance st d m c) s = .next t ∧ t.taken.getLast? = some (advanceValue st d m c) :=
  ⟨_, advanceLeavesExactly st d m c s, List.getLast?_concat⟩

/-- A request given to the unit is answered, and its response is the last one taken. -/
theorem act_request (h : Session) (st d m c : Word) :
    ∃ t, h.act (.request (encodeReq st d m c)) = some { h with machine := t } ∧
      t.taken.getLast? = some (advanceValue st d m c) := by
  have hstep := step_request { h.machine with moves := .request (encodeReq st d m c) :: h.machine.moves } _ _ rfl
  rw [Laws.RoundTrip.decodeReq_encodeReq] at hstep
  obtain ⟨t, hexec, htaken⟩ := exec_advance_returns st d m c
    (State.moved { h.machine with moves := .request (encodeReq st d m c) :: h.machine.moves } h.machine.moves)
  refine ⟨t, ?_, htaken⟩
  simp only [Session.act, hstep, hexec]

/-- An `advance` line of arguments that have values assigns the iterated map's value and changes no other variable. -/
theorem line_advance {h : Session} {rs d m c : Arg} {st k a b : Word} (rd : Nat) (hs : h.value rs = some st)
    (hd : h.value d = some k) (hm : h.value m = some a) (hc : h.value c = some b) :
    ∃ t, h.line (.advance rd rs d m c) = some (({ h with machine := t } : Session).assign rd (advanceValue st k a b)) := by
  obtain ⟨t, hact, htaken⟩ := act_request h st k a b
  refine ⟨t, ?_⟩
  simp only [Session.line, hs, hd, hm, hc, hact, htaken, Option.map_some]

theorem script_cons {h h' : Session} {l : Line} (hl : h.line l = some h') (rest : List Line) :
    h.script (l :: rest) = h'.script rest := by
  simp [Session.script, hl]

/-- A one-line script that advances gives `rd` the iterated map's value. -/
theorem script_advance {h : Session} {rs d m c : Arg} {st k a b : Word} (rd : Nat) (hs : h.value rs = some st)
    (hd : h.value d = some k) (hm : h.value m = some a) (hc : h.value c = some b) :
    ∃ h', h.script [.advance rd rs d m c] = some h' ∧ h'.value (.var rd) = some (advanceValue st k a b) := by
  obtain ⟨t, hline⟩ := line_advance rd hs hd hm hc
  exact ⟨_, script_cons hline [], Session.assign_value_self _ _ _⟩

/-- Two lines, the second by the complement of the first one's count and on its result: with an odd multiplier the state comes
back (R105, R107). The second count is read after the first result is assigned. -/
theorem script_advance_back {h : Session} {d d' : Arg} {k m : Word} (rd : Nat) (st c : Word)
    (hodd : isOdd m = true) (hd : h.value d = some k) (hd' : ∀ w, (h.assign rd w).value d' = some (negMod k)) :
    ∃ h', h.script [.advance rd (.lit st) d (.lit m) (.lit c), .advance rd (.var rd) d' (.lit m) (.lit c)] = some h' ∧
      h'.value (.var rd) = some st := by
  obtain ⟨t, hline⟩ := line_advance (rs := .lit st) (m := .lit m) (c := .lit c) rd rfl hd rfl rfl
  rw [script_cons hline]
  have hcount : (({ h with machine := t } : Session).assign rd (advanceValue st k m c)).value d' = some (negMod k) := by
    refine (Session.value_of_vars _ _ ?_ d').trans (hd' (advanceValue st k m c))
    rfl
  have hback := script_advance (m := .lit m) (c := .lit c) rd (Session.assign_value_self _ _ _) hcount rfl rfl
  rwa [advanceValue_negMod (odd_of_isOdd hodd)] at hback

/-- The line `reset` leaves the unit in IDLE and the variables as they were. -/
theorem line_reset (h : Session) : ∃ h', h.line .reset = some h' ∧ h'.machine.phase = .idle ∧ h'.vars = h.vars := by
  have hstep := step_tick { h.machine with moves := .tick .resetting :: h.machine.moves } .resetting h.machine.moves rfl
  refine ⟨{ h with machine := (h.machine.ticked .resetting).setPhase .idle }, ?_, rfl, rfl⟩
  simp only [Session.line, Session.act, hstep]
  rfl

/-- Settles O45: each pseudo-operation is one `advance` line, and `back` and `jumpback` go by the complement of the count. -/
theorem pseudoOperationsStepBothWays : Obligations.PseudoOperationsStepBothWays := by
  constructor
  · intro h rd st v m c k hk
    have hback (w : Word) (hw : (h.assign rd w).value k = some v) : (h.assign rd w).value (.complement k) = some (negMod v) := by
      simp [hw]
    exact ⟨script_advance rd rfl hk rfl rfl, script_advance rd rfl (by simp [hk]) rfl rfl,
      fun hodd hkeep => script_advance_back rd st c hodd hk fun w => hback w (hkeep w)⟩
  · intro h rd st m c hodd
    have hneg : negMod 1 = 0xFFFFFFFFFFFFFFFF := by decide
    exact ⟨script_advance (k := 1) rd rfl rfl rfl rfl, script_advance_back rd st c hodd rfl fun _ => congrArg some hneg.symm,
      script_advance (k := 0) rd rfl rfl rfl rfl, line_reset h⟩

end Sys2Proof.Machine
end

section
/-! PROOFS. The algebra of the powers of one map (40_advance.md R103, R113, R116), the loop invariant (R102), what an ADVANCE
returns and what follows from it for step counts and multipliers (R100, R106 to R115), and the invariant every step keeps
(R113, R125). -/

namespace Sys2Proof.Machine

/-! ### Powers of one map compose (R103, R113, R116) -/

/-- The increment in the other form of composition (R113). -/
theorem incMod_add_other (m c : Word) (j k : Nat) : incMod m c (j + k) = powMod m j * incMod m c k + incMod m c j := by
  rw [add_comm j k, incMod_add, powMod_eq_pow]
  ring

/-- Settles O20: the exponents add in the multiplier and, in both forms, in the increment; SQUARE is the case of equal
exponents. -/
theorem powersOfOneMapCompose : Obligations.PowersOfOneMapCompose := by
  intro m c j k
  refine ⟨?_, ?_, ?_⟩
  · rw [compose_eq, powMod_add, incMod_add, powMod_eq_pow m k]
  · rw [mac64_eq, incMod_add_other]
  · have hinc : (powMod m k + 1) * incMod m c k = incMod m c (2 * k) := by
      rw [two_mul, incMod_add_other]
      ring
    rw [square_eq, hinc, two_mul, powMod_add]

theorem geomSum_add (m j k : Nat) : geomSum m (j + k) = m ^ j * geomSum m k + geomSum m j := by
  induction k with
  | zero => simp [geomSum]
  | succ k ih =>
    rw [← add_assoc, geomSum, geomSum, ih, pow_add]
    ring

/-- Settles O21: the second identity of `G` is the first one with equal counts. -/
theorem closedFormOfIteration : Obligations.ClosedFormOfIteration := by
  refine ⟨fun m c k x => ?_, geomSum_add, fun m k => ?_⟩
  · rw [applyPair_eq, lcgIter_eq]
  · rw [two_mul, geomSum_add]
    ring

/-- Settles O23: a full cycle of an odd multiplier is the identity pair. -/
theorem fullCycleIsIdentity : Obligations.FullCycleIsIdentity := fun _ c h =>
  have hm := odd_of_isOdd h
  ⟨powMod_fullCycle hm, incMod_fullCycle hm c, lcgIter_fullCycle hm c⟩

/-! ### The loop invariant (R102) -/

theorem lt_bitlen_of_div_ne_zero {d : Word} {i : Nat} (h : d.toNat / 2 ^ i ≠ 0) : i < bitlen d := by
  have hle : 2 ^ i ≤ d.toNat := (Nat.div_ne_zero_iff.1 h).2
  have hne : d.toNat ≠ 0 := by
    intro h0
    simp [h0] at h
  rw [bitlen, if_neg hne]
  exact Nat.lt_succ_of_le ((Nat.le_log2 hne).2 hle)

theorem loopInvariant_acceptWrites (s : State) :
    LoopInvariant s.ports.reqState s.ports.reqDelta s.ports.reqMult s.ports.reqInc 0 (acceptWrites s) where
  phase := rfl
  bound := Nat.zero_le _
  state := rfl
  delta := by simp [acceptWrites_eq]
  accMult := by simp only [acceptWrites_eq, pow_zero, Nat.mod_one]; rfl
  accInc := by simp [acceptWrites_eq, Nat.mod_one]
  curMult := by simp [acceptWrites_eq, powMod_one]
  curInc := by simp [acceptWrites_eq, incMod_one]

/-- The invariant speaks of the registers only. -/
theorem loopInvariant_hostAt {st d m c : Word} {i : Nat} {s : State} (h : LoopInvariant st d m c i s) (q : Inputs) (n : Nat) :
    LoopInvariant st d m c i (s.hostAt q n) :=
  ⟨h.phase, h.bound, h.state, h.delta, h.accMult, h.accInc, h.curMult, h.curInc⟩

/-- The iteration step composes the doubling map exactly when the bit it adds to the exponent is 1. -/
theorem iterationWrites_acc {st d m c : Word} {i : Nat} {s : State} (h : LoopInvariant st d m c i s) :
    (iterationWrites s).accMult = powMod m (d.toNat % 2 ^ (i + 1)) ∧
    (iterationWrites s).accInc = incMod m c (d.toNat % 2 ^ (i + 1)) := by
  unfold iterationWrites
  split
  · next hb =>
    have hbit : d.toNat / 2 ^ i % 2 = 1 := h.delta ▸ (b0_eq_true _).1 hb
    rw [Nat.mod_pow_succ, hbit, mul_one, powMod_add, incMod_add, ← powMod_eq_pow, composeSquareShiftWrites_eq, h.accMult,
      h.accInc, h.curMult, h.curInc]
    exact ⟨rfl, rfl⟩
  · next hb =>
    have hbit : d.toNat / 2 ^ i % 2 = 0 := h.delta ▸ (b0_eq_false _).1 (Bool.eq_false_iff.2 hb)
    rw [Nat.mod_pow_succ, hbit, mul_zero, add_zero]
    exact ⟨h.accMult, h.accInc⟩

theorem loopInvariant_iterationWrites {st d m c : Word} {i : Nat} {s : State} (h : LoopInvariant st d m c i s)
    (hne : s.delta.toNat ≠ 0) : LoopInvariant st d m c (i + 1) (iterationWrites s) where
  phase := (iterationWrites_phase s).trans h.phase
  bound := lt_bitlen_of_div_ne_zero (h.delta ▸ hne)
  state := (iterationWrites_state s).trans h.state
  delta := by rw [iterationWrites_delta, shift_toNat, h.delta, Nat.div_div_eq_div_mul, pow_succ]
  accMult := (iterationWrites_acc h).1
  accInc := (iterationWrites_acc h).2
  curMult := by rw [iterationWrites_curMult, h.curMult, ← powMod_add, pow_succ, mul_two]
  curInc := by
    rw [iterationWrites_curInc, h.curMult, h.curInc, pow_succ, mul_two, incMod_add_other]
    ring

/-- Settles O27: established by ACCEPT, kept by the iteration step whichever it is, and read as maps by the closed form. -/
theorem loopInvariantKept : Obligations.LoopInvariantKept := by
  refine ⟨fun s => ⟨_, rfl, loopInvariant_acceptWrites s⟩, fun st d m c i s p h hd hp => ?_, fun st d m c i s x h => ?_⟩
  · have hne : s.delta.toNat ≠ 0 := fun h0 => hd (BitVec.eq_of_toNat_eq h0)
    have hstep := stepWith_run hp h.phase
    rw [if_neg hne] at hstep
    exact ⟨_, hstep, loopInvariant_iterationWrites (loopInvariant_hostAt h p _) hne⟩
  · simp only [applyPair_eq, lcgIter_eq, State.acc_mult, State.acc_inc, State.cur_mult, State.cur_inc, h.accMult, h.accInc,
      h.curMult, h.curInc, and_self]

/-! ### What ADVANCE returns (R100, R106) -/

/-- Settles O24: RESULT and the last response are read off the state that ADVANCE leaves. -/
theorem advanceReturnsIteratedMap : Obligations.AdvanceReturnsIteratedMap :=
  ⟨fun st d m c s => ⟨_, advanceLeavesExactly st d m c s, rfl, rfl, List.getLast?_concat⟩, fun _ => ⟨_, _, _, _, rfl⟩⟩

/-- Every state returns the same value for the same operands. -/
theorem returned_eq (st d m c : Word) (s : State) : returned st d m c s = some (advanceValue st d m c) := by
  obtain ⟨t, hexec, htaken⟩ := exec_advance_returns st d m c s
  simp only [returned, hexec, htaken]

theorem advanceValue_zero (st m c : Word) : advanceValue st 0 m c = st := rfl

/-- Settles O28: no step is made. -/
theorem zeroDeltaIsIdentity : Obligations.ZeroDeltaIsIdentity := by
  intro st m c s
  rw [returned_eq, advanceValue_zero]

/-! ### Stepping back with an odd multiplier (R107, R111) -/

/-- Settles O29: the two counts make no step or a full cycle. -/
theorem roundTripReturnsState : Obligations.RoundTripReturnsState := by
  intro st d m c s hodd
  obtain ⟨t, hforth, -, hresult, -⟩ := advanceReturnsIteratedMap.1 st d m c s
  obtain ⟨u, hback, -, hresult', htaken⟩ := advanceReturnsIteratedMap.1 t.result (negMod d) m c t
  rw [hresult, advanceValue_negMod (odd_of_isOdd hodd)] at hresult' htaken
  exact ⟨t, u, hforth, hback, hresult', htaken⟩

theorem negMod_negMod (d : Word) : negMod (negMod d) = d := by
  have := d.isLt
  apply BitVec.eq_of_toNat_eq
  simp only [negMod, BitVec.toNat_ofNat]
  omega

/-- The inverse of stepping by a count is stepping by its complement, on either side. -/
theorem advanceValue_bijective {m : Word} (hm : Odd m) (d c : Word) :
    Function.Bijective fun st => advanceValue st d m c := by
  refine Function.bijective_iff_has_inverse.2
    ⟨fun v => advanceValue v (negMod d) m c, fun st => advanceValue_negMod hm st d c, fun v => ?_⟩
  simpa only [negMod_negMod] using advanceValue_negMod hm v (negMod d) c

/-- Settles O31: the operator has an inverse on both sides, so every value is met exactly once. -/
theorem oddMultiplierBijection : Obligations.OddMultiplierBijection := by
  intro d m c s hodd
  have hm := odd_of_isOdd hodd
  simp only [returned_eq, Option.some.injEq]
  exact ⟨(advanceValue_bijective hm d c).existsUnique, fun st => ⟨_, rfl, advanceValue_negMod hm st d c⟩⟩

/-! ### Even multipliers and large counts (R112, R115) -/

theorem two_dvd_of_isOdd_eq_false {m : Word} (h : isOdd m = false) : 2 ∣ m := by
  have heven : m.toNat % 2 = 0 := by simpa [isOdd] using h
  refine ⟨BitVec.ofNat 64 (m.toNat / 2), BitVec.eq_of_toNat_eq ?_⟩
  have := m.isLt
  rw [BitVec.toNat_mul, BitVec.toNat_ofNat, show (2 : Word).toNat = 2 from rfl]
  omega

/-- From the 64th power on every factor 2 of the modulus is there. -/
theorem powMod_of_even {m : Word} (hm : isOdd m = false) {k : Nat} (hk : 64 ≤ k) : powMod m k = 0 := by
  have hdvd : (2 : Word) ^ 64 ∣ m ^ k :=
    (pow_dvd_pow_of_dvd (two_dvd_of_isOdd_eq_false hm) 64).trans (pow_dvd_pow m hk)
  rwa [two_pow_width, zero_dvd_iff, ← powMod_eq_pow] at hdvd

theorem advanceValue_of_even {m d : Word} (hm : isOdd m = false) (hd : 64 ≤ d.toNat) (st c : Word) :
    advanceValue st d m c = incMod m c d.toNat := by
  rw [advanceValue, lcgIter_eq, powMod_of_even hm hd, zero_mul, zero_add]

/-- Without an increment nothing is added. -/
theorem incMod_zero_inc (m : Word) (k : Nat) : incMod m 0 k = 0 := by
  simp [incMod]

/-- Settles O33: one step doubles, two states that differ in bit 63 fall together, and 2^64 - 1 steps clear every bit. -/
theorem evenMultiplierDoesNotInvert : Obligations.EvenMultiplierDoesNotInvert := by
  refine ⟨(returned_eq ..).trans ?_, (returned_eq ..).trans ?_, (returned_eq ..).trans ?_⟩
  · decide
  · rw [advanceValue_of_even (by decide) (by decide), incMod_zero_inc]
  · decide

/-! ### Step counts add (R108) -/

/-- The sum of two counts modulo 2^64 is their sum, or a full cycle less. -/
theorem toNat_add_eq_or_wraps (d₁ d₂ : Word) : d₁.toNat + d₂.toNat = (d₁ + d₂).toNat ∨
    2 ^ 64 ≤ d₁.toNat + d₂.toNat ∧ d₁.toNat + d₂.toNat = 2 ^ 64 + (d₁ + d₂).toNat := by
  have := d₁.isLt
  have := d₂.isLt
  rw [BitVec.toNat_add]
  omega

theorem advanceValue_advanceValue {m d₁ d₂ : Word} (h : isOdd m = true ∨ d₁.toNat + d₂.toNat < 2 ^ 64) (st c : Word) :
    advanceValue (advanceValue st d₁ m c) d₂ m c = advanceValue st (d₁ + d₂) m c := by
  unfold advanceValue
  rw [← lcgIter_add]
  obtain hsum | ⟨hwrap, hsum⟩ := toNat_add_eq_or_wraps d₁ d₂
  · rw [hsum]
  · have hodd : isOdd m = true := h.resolve_right (Nat.not_lt.2 hwrap)
    rw [hsum, lcgIter_add, lcgIter_fullCycle (odd_of_isOdd hodd)]

/-- Settles O30. Where it fails: with multiplier 2 the counts 1 and 2^64 - 1 add to 0, which returns the state 1, but in two
operations every bit of it is shifted out. -/
theorem stepCountsAdd : Obligations.StepCountsAdd := by
  constructor
  · intro st d₁ d₂ m c s h
    obtain ⟨t, hfirst, -, hresult, -⟩ := advanceReturnsIteratedMap.1 st d₁ m c s
    obtain ⟨u, hsecond, -, hresult', -⟩ := advanceReturnsIteratedMap.1 t.result d₂ m c t
    obtain ⟨v, hboth, -, hresult'', -⟩ := advanceReturnsIteratedMap.1 st (d₁ + d₂) m c s
    refine ⟨t, u, v, hfirst, hsecond, hboth, ?_⟩
    rw [hresult', hresult, hresult'', advanceValue_advanceValue h]
  · obtain ⟨-, hsecond, hfirst⟩ := evenMultiplierDoesNotInvert
    have hsum : (1 : Word) + 0xFFFFFFFFFFFFFFFF = 0 := by decide
    refine ⟨1, 1, 0xFFFFFFFFFFFFFFFF, 2, 0, 2, by decide, by decide, hfirst, ?_⟩
    rw [hsecond, hsum, zeroDeltaIsIdentity 1 2 0 State.reset]
    decide

/-! ### Special multipliers (R115) -/

theorem lcgIter_one (c : Word) (k : Nat) (x : Word) : lcgIter 1 c k x = x + k * c := by
  induction k with
  | zero => simp [lcgIter]
  | succ k ih =>
    rw [lcgIter_succ, ih, lcgStep_eq, Nat.cast_succ]
    ring

theorem lcgIter_zero_mult {k : Nat} (hk : k ≠ 0) (c x : Word) : lcgIter 0 c k x = c := by
  obtain ⟨k, rfl⟩ := Nat.exists_eq_add_one_of_ne_zero hk
  rw [lcgIter_succ, lcgStep_eq, mul_zero, zero_add]

/-- Twice as many steps are as many of the squared map (R157). -/
theorem lcgIter_double (m c : Word) (k : Nat) (x : Word) :
    lcgIter m c (2 * k) x = lcgIter (square ⟨m, c⟩).mult (square ⟨m, c⟩).inc k x := by
  rw [square_eq, lcgIter_eq, lcgIter_eq, powMod_square, incMod_square]

theorem square_neg_one (c : Word) : square ⟨-1, c⟩ = ⟨1, 0⟩ := by
  have hmult : (-1 : Word) * -1 = 1 := by decide
  have hinc : (-1 + 1) * c = 0 := by ring
  rw [square_eq]
  exact congrArg₂ Affine.mk hmult hinc

/-- The map of the multiplier -1 is its own inverse: its square is the identity pair. -/
theorem lcgIter_neg_one_even (c : Word) (k : Nat) (x : Word) : lcgIter (-1) c (2 * k) x = x := by
  rw [lcgIter_double, square_neg_one, lcgIter_one, mul_zero, add_zero]

theorem lcgStep_neg_one (c x : Word) : lcgStep (-1) c x = c - x := by
  rw [lcgStep_eq]
  ring

theorem advanceValue_neg_one_even {d : Word} (hd : d.getLsbD 0 = false) (st c : Word) : advanceValue st d (-1) c = st := by
  have hhalf : d.toNat = 2 * (d.toNat / 2) := by
    have := (b0_eq_false d).1 hd
    omega
  rw [advanceValue, hhalf, lcgIter_neg_one_even]

theorem advanceValue_neg_one_odd {d : Word} (hd : d.getLsbD 0 = true) (st c : Word) : advanceValue st d (-1) c = c - st := by
  have hhalf : d.toNat = 2 * (d.toNat / 2) + 1 := by
    have := (b0_eq_true d).1 hd
    omega
  rw [advanceValue, hhalf, lcgIter_succ, lcgIter_neg_one_even, lcgStep_neg_one]

/-- Settles O32, multiplier by multiplier. -/
theorem specialMultipliers : Obligations.SpecialMultipliers := by
  intro st d c s
  have hneg : (0xFFFFFFFFFFFFFFFF : Word) = -1 := by decide
  have hone : advanceValue st d 1 c = st + d * c := by
    rw [advanceValue, lcgIter_one, BitVec.natCast_eq_ofNat, BitVec.ofNat_toNat, BitVec.setWidth_eq]
  have hzero (hd : d ≠ 0) : advanceValue st d 0 c = c :=
    lcgIter_zero_mult (fun h0 => hd (BitVec.eq_of_toNat_eq h0)) c st
  simp only [returned_eq, Option.some.injEq]
  rw [hneg]
  exact ⟨hone, advanceValue_zero st 0 c, hzero, fun hd => advanceValue_neg_one_even hd st c,
    fun hd => advanceValue_neg_one_odd hd st c, lcgStep_neg_one c st, square_neg_one c,
    fun _ hm hd => advanceValue_of_even hm hd st c⟩

/-! ### The operation invariant (R113, R125, R130) -/

/-- All that a step can do: the control step selected at a tick, whatever ports the host drives, or an ADVANCE. -/
theorem step_cases {s t : State} (h : step s = .next t) :
    (∃ p rest, exec (selected ((s.drive p).moved rest)) ((s.drive p).moved rest) = .next t) ∨
    (∃ st d m c rest, exec (.advance st d m c) (s.moved rest) = .next t) := by
  cases hm : s.moves with
  | nil => exact .inl ⟨_, _, (step_unlisted s hm).symm.trans h⟩
  | cons move rest =>
    cases move with
    | tick p => exact .inl ⟨p, rest, (step_tick s p rest hm).symm.trans h⟩
    | request w => exact .inr ⟨_, _, _, _, _, (step_request s w rest hm).symm.trans h⟩

/-- The identity map commutes with every map. -/
theorem mapsCommute_acceptWrites (s : State) : MapsCommute (acceptWrites s) := by
  simp [MapsCommute, acceptWrites_eq]

/-- A map that commutes with another commutes with its square. -/
theorem mapsCommute_squareShiftWrites {s : State} (h : MapsCommute s) : MapsCommute (squareShiftWrites s) := by
  unfold MapsCommute at *
  rw [squareShiftWrites_eq]
  linear_combination (s.curMult + 1) * h

theorem mapsCommute_composeSquareShiftWrites {s : State} (h : MapsCommute s) : MapsCommute (composeSquareShiftWrites s) := by
  unfold MapsCommute at *
  rw [composeSquareShiftWrites_eq]
  linear_combination (s.curMult ^ 2 + s.curMult) * h

/-- In RUN the invariant is that the maps commute. -/
theorem operationInvariant_of_run {s : State} (hr : s.phase = .run) (h : MapsCommute s) : OperationInvariant s where
  commute _ := h
  exhausted hd := by simp [hr] at hd
  applied hd := by simp [hr] at hd

/-- FINISH at DELTA = 0 applies the accumulated map (R125). -/
theorem operationInvariant_finishWrites {s : State} (h : MapsCommute s) (hz : s.delta.toNat = 0) :
    OperationInvariant (finishWrites s) where
  commute _ := h
  exhausted _ := BitVec.eq_of_toNat_eq hz
  applied _ := by rw [finishWrites_eq]

/-- The host's driving and moving on touch no register. -/
theorem operationInvariant_driven {s : State} (h : OperationInvariant s) (p : Inputs) (rest : List HostMove) :
    OperationInvariant ((s.drive p).moved rest) :=
  ⟨h.commute, h.exhausted, h.applied⟩

/-- The control step selected at a tick keeps the invariant: each one is selected only in the phase whose clause it needs. -/
theorem operationInvariant_selected {s t : State} (h : OperationInvariant s) (he : exec (selected s) s = .next t) :
    OperationInvariant t := by
  have commute (hr : s.phase = .run) : MapsCommute s := h.commute (by simp [hr])
  obtain ⟨-, hsel⟩ | ⟨-, -, -, hsel⟩ | ⟨-, -, -, hsel⟩ | ⟨-, hr, -, -, hsel⟩ | ⟨-, hr, -, -, hsel⟩ | ⟨-, hr, hz, hsel⟩ |
    ⟨-, -, -, hsel⟩ | ⟨-, -, -, hsel⟩ := selected_cases s <;> rw [hsel] at he <;> cases he
  · exact operationInvariant_of_idle rfl
  · exact h
  · exact operationInvariant_of_run rfl (mapsCommute_acceptWrites s)
  · exact operationInvariant_of_run hr (mapsCommute_squareShiftWrites (commute hr))
  · exact operationInvariant_of_run hr (mapsCommute_composeSquareShiftWrites (commute hr))
  · exact operationInvariant_finishWrites (commute hr) hz
  · exact h
  · exact operationInvariant_of_idle rfl

/-- Settles O37: a tick runs the control step selected at it, and an ADVANCE ends in IDLE. -/
theorem stepKeepsOperationInvariant : Obligations.StepKeepsOperationInvariant := by
  intro s t h hstep
  obtain ⟨p, rest, he⟩ | ⟨st, d, m, c, rest, he⟩ := step_cases hstep
  · exact operationInvariant_selected (operationInvariant_driven h p rest) he
  · cases (advanceLeavesExactly st d m c _).symm.trans he
    exact operationInvariant_of_idle rfl

end Sys2Proof.Machine
end

section
/-! PROOFS. Each control step of section 41: the vectors that select it, the record its writes equal, the graph of the phases, the
steps of an operation in phase RUN, and a unit that waits in DONE (41_control_steps.md R120 to R131). -/

namespace Sys2Proof.Machine

variable {s : State} {p : Inputs} {ps : List Inputs}

/-! ### Selection by a row of Table 30-3 (R75, R76) -/

/-- No step has two rows. -/
theorem selTable_step_injective : ∀ r ∈ selTable, ∀ q ∈ selTable, q.step = r.step → q = r := by
  decide

/-- A step is selected by exactly the vectors that its own row accepts. -/
theorem decode_sel_row {r : SelRow} (hr : r ∈ selTable) (w : SelWord) :
    decode (.sel w) = .ok r.step ↔ w &&& r.mask = r.value := by
  refine decodeSel_eq_ok_iff.trans ⟨?_, fun h => ⟨r, hr, accepts_iff.2 h, rfl⟩⟩
  rintro ⟨q, hq, hqw, hstep⟩
  rw [selTable_step_injective r hr q hq hstep] at hqw
  exact accepts_iff.1 hqw

/-! ### SHIFT (R154, R158) -/

theorem shift_eq_ushiftRight (d : Word) : shift d = d >>> 1 :=
  BitVec.eq_of_toNat_eq (by rw [shift_toNat, BitVec.toNat_ushiftRight, Nat.shiftRight_one])

/-- A number other than 0 that loses no 1 bit keeps one (R123). -/
theorem shift_ne_zero {d : Word} (hd : d ≠ 0) (hbit : b0 d = false) : shift d ≠ 0 := by
  intro hzero
  have heven := (b0_eq_false d).1 hbit
  have hhalf : d.toNat / 2 = 0 := (shift_toNat d).symm.trans (congrArg BitVec.toNat hzero)
  have hnone : d.toNat = 0 := by omega
  exact hd (BitVec.eq_of_toNat_eq hnone)

theorem shift_getLsbD (d : Word) (i : Nat) : (shift d).getLsbD i = d.getLsbD (i + 1) := by
  rw [shift_eq_ushiftRight, BitVec.getLsbD_ushiftRight, Nat.add_comm]

/-! ### RESET, and no answer to what it abandons (R120) -/

/-- From IDLE nothing is due, so over a run without reset only answers to its own requests are taken. -/
theorem taken_prefix_answers (hidle : s.phase = .idle) (hps : NoReset ps) :
    ∃ t, runTicks ps s = .next t ∧ s.taken <+: t.taken ∧ t.taken <+: s.taken ++ (acceptedIn ps s).map answer := by
  obtain ⟨t, hrun, htaken, hdue⟩ := runTicks_responses hps s
  rw [due_of_idle hidle, List.append_nil] at hdue
  exact ⟨t, hrun, htaken, t.due, hdue⟩

/-- Settles O7: RESET leaves the unit in IDLE, where nothing is due. -/
theorem resetStep : Obligations.ResetStep := by
  refine ⟨decode_sel_row (r := ⟨.reset, 0x40, 0x40⟩) (by decide), fun _ => rfl, fun s ps hps => ?_⟩
  obtain ⟨t, hrun, htaken⟩ := taken_prefix_answers (s.setPhase_phase .idle) hps
  exact ⟨_, t, rfl, hrun, htaken⟩

/-! ### The handshake and iteration steps (R121 to R127) -/

/-- What a host sees of a unit in DONE: not ready, RESULT offered. -/
theorem outputs_of_done (h : s.phase = .done) :
    s.rspValid = true ∧ s.reqReady = false ∧ ∀ read, s.rspResult read = s.result := by
  have hne : s.phase ≠ .idle := by simp [h]
  exact ⟨rspValid_iff_done.2 h, Bool.eq_false_iff.2 (mt reqReady_iff_idle.1 hne), rspResult_of_done h⟩

/-- Settles O8: the row of WAIT, and no write. -/
theorem waitStep : Obligations.WaitStep :=
  ⟨decode_sel_row (r := ⟨.wait, 0x78, 0x00⟩) (by decide), fun _ => rfl⟩

/-- Settles O9: the row of ACCEPT, and the record its writes equal. -/
theorem acceptStep : Obligations.AcceptStep :=
  ⟨decode_sel_row (r := ⟨.accept, 0x78, 0x08⟩) (by decide), fun s => congrArg Host.Outcome.next (acceptWrites_eq s)⟩

/-- Settles O10: SQUARE and SHIFT; an even DELTA other than 0 keeps a 1 bit through the shift. -/
theorem iterSkipStep : Obligations.IterSkipStep := by
  refine ⟨decode_sel_row (r := ⟨.iterSkip, 0x76, 0x10⟩) (by decide), fun s => ?_, fun d hd hbit => ?_⟩
  · rw [← shift_eq_ushiftRight]
    exact congrArg Host.Outcome.next (squareShiftWrites_eq s)
  · rw [← shift_eq_ushiftRight]
    exact shift_ne_zero hd hbit

/-- Settles O11: COMPOSE, SQUARE and SHIFT, as one record of the values before the step. -/
theorem iterComposeStep : Obligations.IterComposeStep := by
  refine ⟨decode_sel_row (r := ⟨.iterCompose, 0x76, 0x12⟩) (by decide), fun s => ?_⟩
  rw [← shift_eq_ushiftRight]
  exact congrArg Host.Outcome.next (composeSquareShiftWrites_eq s)

/-- Settles O12: the row of FINISH, and APPLY. -/
theorem finishStep : Obligations.FinishStep :=
  ⟨decode_sel_row (r := ⟨.finish, 0x74, 0x14⟩) (by decide), fun s => congrArg Host.Outcome.next (finishWrites_eq s)⟩

/-- Settles O13: the outputs are those of DONE still. -/
theorem holdStep : Obligations.HoldStep :=
  ⟨decode_sel_row (r := ⟨.hold, 0x71, 0x20⟩) (by decide), fun _ => rfl, fun s hd => ⟨s, rfl, outputs_of_done hd⟩⟩

/-- Settles O14: the outputs are those of IDLE. -/
theorem deliverStep : Obligations.DeliverStep := by
  refine ⟨decode_sel_row (r := ⟨.deliver, 0x71, 0x21⟩) (by decide),
    fun s => congrArg Host.Outcome.next (deliverWrites_eq s), fun s => ?_⟩
  obtain ⟨ready, invalid, free⟩ := outputs_of_idle (s := deliverWrites s) rfl
  exact ⟨_, rfl, invalid, ready, free⟩

/-! ### The phase graph (R129, Table 41-1) -/

/-- Whatever the phase, a tick with reset is RESET (R120). -/
theorem stepWith_rst (hp : p.rst = true) (s : State) : stepWith (.tick p) s = .next ((s.ticked p).setPhase .idle) := by
  have hsel : selected (s.ticked p) = .reset := by simp [selected, hp]
  rw [stepWith_tick, hsel]
  rfl

/-- Settles O35: reset first, and without it the two steps that each phase has. -/
theorem phaseGraph : Obligations.PhaseGraph := by
  intro s p
  cases hp : p.rst with
  | true => exact ⟨_, stepWith_rst hp s, rfl⟩
  | false =>
    cases hphase : s.phase with
    | idle =>
      refine ⟨_, stepWith_idle hp hphase, ?_⟩
      cases p.reqValid with
      | true => rfl
      | false => exact hphase
    | run =>
      refine ⟨_, stepWith_run hp hphase, ?_⟩
      have hzero : s.delta.toNat = 0 ↔ s.delta = 0 := BitVec.toNat_inj (y := 0)
      by_cases hd : s.delta = 0
      · rw [if_pos (hzero.2 hd)]
        exact (if_pos hd).symm
      · rw [if_neg (mt hzero.1 hd)]
        exact (iterationWrites_phase _).trans (hphase.trans (if_neg hd).symm)
    | done =>
      refine ⟨_, stepWith_done hp hphase, ?_⟩
      cases p.rspReady with
      | true => rfl
      | false => exact hphase

/-! ### `bitlen` and `popcount` (R7, R131) -/

theorem lt_bitlen_of_two_pow_le {d : Word} {i : Nat} (h : 2 ^ i ≤ d.toNat) : i < bitlen d :=
  lt_bitlen_of_div_ne_zero (Nat.div_ne_zero_iff.2 ⟨by positivity, h⟩)

theorem lt_bitlen_of_getLsbD {d : Word} {i : Nat} (h : d.getLsbD i = true) : i < bitlen d :=
  lt_bitlen_of_two_pow_le (Nat.ge_two_pow_of_testBit h)

theorem bitlen_le (d : Word) : bitlen d ≤ 64 := by
  unfold bitlen
  split
  · exact Nat.zero_le _
  · next hne => exact (Nat.log2_lt hne).2 d.isLt

/-- All 1 bits lie below `bitlen`. -/
theorem popcount_eq_countP_range_bitlen (d : Word) :
    popcount d = (List.range (bitlen d)).countP (fun i => d.getLsbD i) := by
  obtain ⟨k, hk⟩ := Nat.exists_eq_add_of_le (bitlen_le d)
  have hrange : List.range 64 = List.range (bitlen d) ++ (List.range k).map (bitlen d + ·) := by
    rw [← List.range_add, ← hk]
  have hhigh : ((List.range k).map (bitlen d + ·)).countP (fun i => d.getLsbD i) = 0 := by
    rw [List.countP_eq_zero]
    intro i hi hbit
    obtain ⟨j, -, rfl⟩ := List.mem_map.1 hi
    have := lt_bitlen_of_getLsbD hbit
    omega
  rw [popcount, hrange, List.countP_append, hhigh, Nat.add_zero]

/-! ### The steps of phase RUN follow the bits of DELTA (R130, R131) -/

/-- The iteration step that bit `i` of a step count asks for. -/
def bitStep (d : Word) (i : Nat) : Instr :=
  if d.getLsbD i then .iterCompose else .iterSkip

theorem bitStep_shift (d : Word) (i : Nat) : bitStep (shift d) i = bitStep d (i + 1) := by
  rw [bitStep, bitStep, shift_getLsbD]

/-- One iteration step for each bit of a step count up to its highest 1, from bit 0 on. -/
def iterationSteps (d : Word) : List Instr :=
  (List.range (bitlen d)).map (bitStep d)

theorem iterationSteps_of_zero {d : Word} (h : d.toNat = 0) : iterationSteps d = [] := by
  rw [iterationSteps, bitlen_of_zero h]
  rfl

/-- Bit 0 first, then the bits of the number halved. -/
theorem iterationSteps_of_ne_zero {d : Word} (h : d.toNat ≠ 0) :
    iterationSteps d = bitStep d 0 :: iterationSteps (shift d) := by
  have htail : (List.range (bitlen (shift d))).map (bitStep d ∘ Nat.succ) = iterationSteps (shift d) :=
    List.map_congr_left fun i _ => (bitStep_shift d i).symm
  rw [iterationSteps, bitlen_of_half d (shift d) h (shift_toNat d), List.range_succ_eq_map, List.map_cons, List.map_map,
    htail]

theorem count_iterCompose_iterationSteps (d : Word) : (iterationSteps d).count .iterCompose = popcount d := by
  rw [popcount_eq_countP_range_bitlen, iterationSteps, List.count, List.countP_map]
  refine List.countP_congr fun i _ => ?_
  cases hbit : d.getLsbD i <;> simp [bitStep, hbit]

theorem count_iterSkip_iterationSteps (d : Word) : (iterationSteps d).count .iterSkip = bitlen d - popcount d := by
  have hsplit := List.length_eq_countP_add_countP (fun i => d.getLsbD i) (l := List.range (bitlen d))
  rw [List.length_range, ← popcount_eq_countP_range_bitlen] at hsplit
  rw [hsplit, Nat.add_sub_cancel_left, iterationSteps, List.count, List.countP_map]
  refine List.countP_congr fun i _ => ?_
  cases hbit : d.getLsbD i <;> simp [bitStep, hbit]

/-- In RUN bit 0 of DELTA selects the step, unless DELTA is 0 (R123, R124, R125). -/
theorem selected_of_run (hp : p.rst = false) (hr : s.phase = .run) :
    selected (s.drive p) = if s.delta.toNat = 0 then .finish else bitStep s.delta 0 := by
  simp [selected, hp, hr, dz_eq_true, bitStep, b0]

theorem stepsIn_cons {t : State} (h : stepWith (.tick p) s = .next t) (ps : List Inputs) :
    stepsIn (p :: ps) s = selected (s.drive p) :: stepsIn ps t := by
  simp only [stepsIn, decode_selectionVector, h]

/-- The steps of an operation in RUN are the iteration steps of DELTA's bits and FINISH, whatever the ports carry but reset. -/
theorem stepsIn_working (hr : s.phase = .run) (hps : NoReset ps) (hlen : ps.length = bitlen s.delta + 1) :
    stepsIn ps s = iterationSteps s.delta ++ [.finish] := by
  induction ps generalizing s with
  | nil => simp at hlen
  | cons p ps ih =>
    obtain ⟨hp, hps⟩ := List.forall_mem_cons.1 hps
    have hlen : ps.length = bitlen s.delta := by simpa using hlen
    rw [stepsIn_cons (stepWith_run hp hr), selected_of_run hp hr]
    by_cases hz : s.delta.toNat = 0
    · obtain rfl : ps = [] := List.eq_nil_of_length_eq_zero (hlen.trans (bitlen_of_zero hz))
      rw [if_pos hz, iterationSteps_of_zero hz]
      rfl
    · have hdelta : (iterationWrites (s.ticked p)).delta = shift s.delta := iterationWrites_delta _
      have hhalf : ps.length = bitlen (iterationWrites (s.ticked p)).delta + 1 := by
        rw [hdelta, hlen]
        exact bitlen_of_half _ _ hz (shift_toNat _)
      rw [if_neg hz, if_neg hz, ih ((iterationWrites_phase (s.ticked p)).trans hr) hps hhalf, hdelta,
        iterationSteps_of_ne_zero hz, List.cons_append]

/-- Settles O36: the sequence of steps, its counts, the bound, and where the loop and FINISH leave the unit. -/
theorem iterationsFollowTheBits : Obligations.IterationsFollowTheBits := by
  refine ⟨fun s ps hr hps hlen => ?_, by decide, by decide, by decide, by decide, fun d hd => ?_, by decide⟩
  · obtain ⟨q, n, hrun⟩ := runTicks_working hr hps hlen
    rw [stepsIn_working hr hps hlen, List.count_append, List.count_append, count_iterCompose_iterationSteps,
      count_iterSkip_iterationSteps]
    exact ⟨rfl, rfl, rfl, bitlen_le _, _, hrun, rfl, rfl, rfl⟩
  · exact le_antisymm (bitlen_le d) (lt_bitlen_of_two_pow_le hd)

/-! ### Waiting for the host (R126, R180, R207) -/

/-- Settles O40: the held ticks move the host only, and the unit shows the outputs of DONE. -/
theorem holdWaitsForTheHost : Obligations.HoldWaitsForTheHost := by
  intro s ps hd hps
  obtain ⟨q, n, hrun⟩ := runTicks_holding hd hps
  obtain ⟨valid, notReady, result⟩ := outputs_of_done (s := s.hostAt q n) hd
  exact ⟨_, hrun, ⟨rfl, rfl, rfl, rfl, rfl, rfl, rfl, rfl⟩, rfl, notReady, valid, result⟩

end Sys2Proof.Machine
end

section
/-! PROOFS. The operators and actions of the data path against exact arithmetic, the two's-complement reading and the affine maps
they stand for, and which 64-bit values are invertible (42_datapath.md R150 to R163). -/

namespace Sys2Proof.Machine

/-! ### The operators modulo 2^64 (R150 to R155) -/

theorem mul64_toNat (a b : Word) : (mul64 a b).toNat = a.toNat * b.toNat % 2 ^ 64 :=
  BitVec.toNat_ofNat ..

theorem add64_toNat (a b : Word) : (add64 a b).toNat = (a.toNat + b.toNat) % 2 ^ 64 :=
  BitVec.toNat_ofNat ..

theorem mac64_toNat (a b c : Word) : (mac64 a b c).toNat = (a.toNat * b.toNat + c.toNat) % 2 ^ 64 := by
  rw [mac64, add64_toNat, mul64_toNat, Nat.mod_add_mod]

theorem inc64_toNat (a : Word) : (inc64 a).toNat = (a.toNat + 1) % 2 ^ 64 :=
  add64_toNat a 1

/-- A wrap of the pre-adder does not show in the product (R153). -/
theorem mul64_inc64_toNat (a b : Word) : (mul64 (inc64 a) b).toNat = (a.toNat + 1) * b.toNat % 2 ^ 64 := by
  rw [mul64_toNat, inc64_toNat, Nat.mod_mul_mod]

theorem lsr1_getLsbD_last (a : Word) : (lsr1 a).getLsbD 63 = false :=
  (shift_getLsbD a 63).trans (BitVec.getLsbD_of_ge a 64 le_rfl)

theorem dz_iff (a : Word) : dz a = true ↔ a = 0 := by
  rw [dz_eq_decide, decide_eq_true_iff]

theorem allOnes_eq_neg_one : (0xFFFFFFFFFFFFFFFF : Word) = -1 := by
  decide

theorem mul64_neg_one_toNat (a : Word) : (mul64 0xFFFFFFFFFFFFFFFF a).toNat = (2 ^ 64 - a.toNat) % 2 ^ 64 := by
  rw [mul64_eq_mul, allOnes_eq_neg_one, neg_one_mul, BitVec.toNat_neg]

theorem mul64_comm (a b : Word) : mul64 a b = mul64 b a := by
  rw [mul64_eq_mul, mul64_eq_mul, mul_comm]

theorem mul64_assoc (a b c : Word) : mul64 (mul64 a b) c = mul64 a (mul64 b c) := by
  simp only [mul64_eq_mul, mul_assoc]

theorem mul64_add64 (a b c : Word) : mul64 a (add64 b c) = add64 (mul64 a b) (mul64 a c) := by
  simp only [mul64_eq_mul, add64_eq_add, mul_add]

/-- Settles O17, operator by operator; the corner cases without a variable are evaluated. -/
theorem operatorsExactModulo : Obligations.OperatorsExactModulo := by
  intro a b c
  have hzero : mul64 a 0 = 0 := by rw [mul64_eq_mul, mul_zero]
  have hone : mul64 a 1 = a := by rw [mul64_eq_mul, mul_one]
  exact ⟨mul64_toNat a b, add64_toNat a b, mac64_toNat a b c, rfl, inc64_toNat a, rfl, mul64_inc64_toNat a b,
    lsr1_toNat a, lsr1_getLsbD_last a, dz_iff a, rfl, hzero, hone, mul64_neg_one_toNat a, by decide, by decide,
    mul64_comm a b, mul64_assoc a b c, mul64_add64 a b c, by decide, by decide, by decide, by decide, by decide⟩

/-! ### The two's-complement reading (R161) -/

theorem mul64_toInt (a b : Word) : (mul64 a b).toInt = (a.toInt * b.toInt).bmod (2 ^ 64) := by
  rw [mul64_eq_mul, BitVec.toInt_mul]

theorem add64_toInt (a b : Word) : (add64 a b).toInt = (a.toInt + b.toInt).bmod (2 ^ 64) := by
  rw [add64_eq_add, BitVec.toInt_add]

/-- Settles O18: the product of `mac64` is reduced before the addition, and the sum forgets it. -/
theorem signedReadingsAgree : Obligations.SignedReadingsAgree := by
  intro a b c
  have hmac : (mac64 a b c).toInt = (a.toInt * b.toInt + c.toInt).bmod (2 ^ 64) := by
    rw [mac64, add64_toInt, mul64_toInt, Int.bmod_add_bmod]
  exact ⟨mul64_toInt a b, add64_toInt a b, hmac, add64_toInt a 1⟩

/-! ### Actions as affine maps (R156 to R159) -/

/-- COMPOSE is the first map, then the second (R156). -/
theorem applyPair_compose (p q : Affine) (x : Word) : applyPair (compose p q) x = applyPair q (applyPair p x) := by
  rw [compose_eq, applyPair_eq, applyPair_eq, applyPair_eq]
  ring

/-- SQUARE is the map composed with itself (R157). -/
theorem square_eq_compose (p : Affine) : square p = compose p p := by
  rw [square_eq, compose_eq]
  congr 1
  ring

theorem applyPair_eq_lcgStep (p : Affine) (x : Word) : applyPair p x = lcgStep p.mult p.inc x := by
  rw [applyPair_eq, lcgStep_eq, mul_comm]

theorem square_one (x : Word) : square ⟨1, x⟩ = ⟨1, 2 * x⟩ := by
  rw [square_eq, one_mul, one_add_one_eq_two]

theorem square_zero (x : Word) : square ⟨0, x⟩ = ⟨0, x⟩ := by
  rw [square_eq, mul_zero, zero_add, one_mul]

/-- Settles O19; the square of a map is its composition with itself, so its meaning is that of COMPOSE. -/
theorem actionsAreAffineMaps : Obligations.ActionsAreAffineMaps := by
  intro p q x
  have htwice : applyPair (square p) x = applyPair p (applyPair p x) := by
    rw [square_eq_compose, applyPair_compose]
  have hidentity : applyPair ⟨1, 0⟩ x = x := by
    rw [applyPair_eq, one_mul, add_zero]
  have hneg : square ⟨0xFFFFFFFFFFFFFFFF, x⟩ = ⟨1, 0⟩ := by
    rw [allOnes_eq_neg_one, square_neg_one]
  exact ⟨compose_eq p q, square_eq p, shift_toNat x, applyPair_eq_lcgStep p x, applyPair_compose p q x, htwice,
    hidentity, hneg, square_one x, square_zero x⟩

/-! ### Powers and inverses (R163) -/

theorem incMod_const_mul (m b c : Word) (k : Nat) : incMod m (b * c) k = b * incMod m c k := by
  induction k with
  | zero => simp
  | succ k ih =>
    rw [incMod_succ, incMod_succ, ih]
    ring

/-- The factor 2 of an even increment comes on top of those of the doubled exponent. -/
theorem two_pow_succ_dvd_incMod {m c : Word} (hm : Odd m) (hc : 2 ∣ c) (n : Nat) :
    (2 : Word) ^ (n + 1) ∣ incMod m c (2 ^ n) := by
  obtain ⟨t, rfl⟩ := hc
  rw [incMod_const_mul, pow_succ']
  exact mul_dvd_mul_left 2 (two_pow_dvd_incMod hm t n)

/-- `m^k - 1` is the increment of the map `x -> m*x + (m - 1)`, and `m - 1` is even: 63 doublings of the exponent and this one
factor 2 make 2^64. -/
theorem powMod_halfCycle {m : Word} (hm : Odd m) : powMod m (2 ^ 63) = 1 := by
  have hinc : (2 : Word) ^ 64 ∣ incMod m (m - 1) (2 ^ 63) :=
    two_pow_succ_dvd_incMod hm (hm.sub_odd odd_one).two_dvd 63
  rw [two_pow_width, zero_dvd_iff] at hinc
  rw [powMod_eq_one_add_incMod, hinc, add_zero]

/-- The inverse of an odd value is its power by 2^63 - 1. -/
theorem mul64_powMod_inverse {m : Word} (hm : Odd m) : mul64 m (powMod m (2 ^ 63 - 1)) = 1 := by
  rw [mul64_comm, mul64_eq_mul, ← powMod_succ]
  exact powMod_halfCycle hm

/-- An even value has no inverse: its 64th power is 0. -/
theorem isOdd_of_mul64_eq_one {m n : Word} (h : mul64 m n = 1) : isOdd m = true := by
  by_contra hodd
  have hnil : m ^ 64 = 0 := by
    rw [← powMod_eq_pow, powMod_of_even (Bool.eq_false_of_not_eq_true hodd) le_rfl]
  have hunit : m ^ 64 * n ^ 64 = 1 := by
    rw [← mul_pow, ← mul64_eq_mul, h, one_pow]
  rw [hnil, zero_mul] at hunit
  exact absurd hunit (by decide)

/-- Settles O22: the half cycle gives an odd value its inverse, and an even value is nilpotent. -/
theorem unitsAreTheOddValues : Obligations.UnitsAreTheOddValues := fun _ =>
  ⟨⟨fun hodd => ⟨_, mul64_powMod_inverse (odd_of_isOdd hodd)⟩, fun ⟨_, h⟩ => isOdd_of_mul64_eq_one h⟩,
    fun hodd => powMod_halfCycle (odd_of_isOdd hodd), fun heven => powMod_of_even heven le_rfl⟩

end Sys2Proof.Machine
end

section
/-! PROOFS. No step and no operation is refused or faults, and the inputs that a tick reads (60_exceptions.md R170, R173;
70_reset_and_hazards.md R205, R208). -/

namespace Sys2Proof.Machine

/-! ### Every step completes (R170) -/

/-- Each operation's meaning is a next state. -/
theorem exec_completes (i : Instr) (s : State) : ∃ t, exec i s = .next t := by
  cases i <;> exact ⟨_, rfl⟩

/-- What a step fetches always decodes: a request word to its ADVANCE, the vector of a state to the step it selects (R75, R76). -/
theorem decode_fetch (s : State) : ∃ i, decode (fetch s).1 = .ok i := by
  unfold fetch
  split
  · exact ⟨_, decode_selectionVector _⟩
  · exact ⟨_, decode_selectionVector _⟩
  · exact ⟨_, rfl⟩

/-- Settles O34: what is fetched decodes, and every operation completes. -/
theorem everyStepCompletes : Obligations.EveryStepCompletes := by
  refine ⟨fun s => ?_, exec_completes⟩
  obtain ⟨i, hi⟩ := decode_fetch s
  rw [step_of_decode hi]
  exact exec_completes i _

/-! ### The inputs that a tick reads (R173, R205, R208) -/

variable {s r : State} {p q : Inputs} {n : Nat}

/-- A request word determines its four operands (R71). -/
theorem operands_eq_of_reqWord_eq (h : p.reqWord = q.reqWord) :
    p.reqState = q.reqState ∧ p.reqDelta = q.reqDelta ∧ p.reqMult = q.reqMult ∧ p.reqInc = q.reqInc := by
  have hfields := congrArg decodeReq h
  simpa only [Inputs.reqWord, Laws.RoundTrip.decodeReq_encodeReq, Instr.advance.injEq] using hfields

/-- ACCEPT reads the operand ports only. -/
theorem acceptWrites_ticked_of_reqWord_eq (h : p.reqWord = q.reqWord) (s : State) :
    acceptWrites (s.ticked q) = (acceptWrites (s.ticked p)).hostAt q (s.draws + 1) := by
  obtain ⟨hstate, hdelta, hmult, hinc⟩ := operands_eq_of_reqWord_eq h
  simp only [acceptWrites_eq, State.hostAt, hstate, hdelta, hmult, hinc]

/-- An iteration step reads no port. -/
theorem iterationWrites_hostAt (s : State) (q : Inputs) (n : Nat) :
    iterationWrites (s.hostAt q n) = (iterationWrites s).hostAt q n := by
  unfold iterationWrites
  rw [hostAt_delta]
  split <;> rfl

/-- In RUN a tick without reset reads no port (R173). -/
theorem stepWith_run_hostAt (hp : p.rst = false) (hr : s.phase = .run) : stepWith (.tick p) s =
    .next ((if s.delta.toNat = 0 then finishWrites s else iterationWrites s).hostAt p (s.draws + 1)) := by
  rw [stepWith_run hp hr, iterationWrites_hostAt]
  split <;> rfl

/-- In DONE a tick without reset reads no port but `rsp_ready` (R173). -/
theorem stepWith_done_hostAt (hp : p.rst = false) (hd : s.phase = .done) : stepWith (.tick p) s =
    .next ((if p.rspReady then deliverWrites s else s).hostAt p (s.draws + 1)) := by
  rw [stepWith_done hp hd]
  split <;> rfl

/-- Two ticks that lead to one state, but for where the host stands, leave the same registers and responses. -/
theorem same_of_stepWith_hostAt (hp : stepWith (.tick p) s = .next (r.hostAt p n))
    (hq : stepWith (.tick q) s = .next (r.hostAt q n)) :
    ∃ t u, stepWith (.tick p) s = .next t ∧ stepWith (.tick q) s = .next u ∧ SameRegisters t u ∧ t.taken = u.taken :=
  ⟨_, _, hp, hq, ⟨rfl, rfl, rfl, rfl, rfl, rfl, rfl, rfl⟩, rfl⟩

/-- Settles O41: in every case the two ticks lead to one state, but for where the host stands. -/
theorem onlyNamedInputsMatter : Obligations.OnlyNamedInputsMatter := by
  intro s p q hrst hvalid hword hready
  cases hp : p.rst with
  | true =>
    exact same_of_stepWith_hostAt (r := s.setPhase .idle) (stepWith_rst hp s) (stepWith_rst (hrst.symm.trans hp) s)
  | false =>
    have hq := hrst.symm.trans hp
    cases hphase : s.phase with
    | idle =>
      have hstepP := stepWith_idle hp hphase
      have hstepQ := stepWith_idle hq hphase
      rw [← hvalid hp hphase] at hstepQ
      cases hv : p.reqValid with
      | true =>
        rw [hv, if_pos rfl] at hstepP hstepQ
        rw [acceptWrites_ticked_of_reqWord_eq (hword hp hphase hv)] at hstepQ
        exact same_of_stepWith_hostAt (r := acceptWrites (s.ticked p)) hstepP hstepQ
      | false =>
        rw [hv, if_neg Bool.false_ne_true] at hstepP hstepQ
        exact same_of_stepWith_hostAt hstepP hstepQ
    | run => exact same_of_stepWith_hostAt (stepWith_run_hostAt hp hphase) (stepWith_run_hostAt hq hphase)
    | done =>
      have hstepQ := stepWith_done_hostAt hq hphase
      rw [← hready hp hphase] at hstepQ
      exact same_of_stepWith_hostAt (stepWith_done_hostAt hp hphase) hstepQ

end Sys2Proof.Machine
end

section
/-! PROOFS. No handshake under reset, and none later without a new request (70_reset_and_hazards.md R203, R206). -/

namespace Sys2Proof.Machine

/-- In IDLE, with no reset and no request, every tick is a WAIT, so a run moves the host only (R121). -/
theorem runTicks_waiting {ps : List Inputs} {s : State} (hidle : s.phase = .idle) (hps : NoReset ps)
    (hquiet : ∀ p ∈ ps, p.reqValid = false) : ∃ q n, runTicks ps s = .next (s.hostAt q n) := by
  induction ps generalizing s with
  | nil => exact ⟨s.ports, s.draws, rfl⟩
  | cons p ps ih =>
    obtain ⟨hp, hps⟩ := List.forall_mem_cons.1 hps
    obtain ⟨hnone, hquiet⟩ := List.forall_mem_cons.1 hquiet
    rw [runTicks_cons (stepWith_idle hp hidle), hnone]
    exact ih hidle hps hquiet

/-- Settles O39: the tick is RESET whatever is offered, and from the IDLE it leaves the unit only waits. -/
theorem resetAbandonsOperation : Obligations.ResetAbandonsOperation := by
  intro s p hp
  have hreset := stepWith_rst hp s
  refine ⟨hreset, fun ps hps hquiet => ?_⟩
  obtain ⟨q, n, hrun⟩ := runTicks_waiting (s := (s.ticked p).setPhase .idle) rfl hps hquiet
  exact ⟨_, (runTicks_cons hreset ps).trans hrun, rfl, rfl, rfl⟩

end Sys2Proof.Machine
end
